-- ==== Sys2Proof/Word.lean ====
section
/-! DEFINITION. The widths of the block: 32-bit words on its ports and 8-bit port bytes (00_scope R6, 30_encoding R90). -/

namespace Sys2Proof

/-- A 32-bit word: CMD, VAL, ADDR, STATUS, RES, RES2, the counter, the notification target (R6, R90). -/
abbrev Word := BitVec 32

/-- An 8-bit port byte or host buffer byte (R6 `PORT_BITS`, R62). -/
abbrev Byte := BitVec 8

end Sys2Proof
end

