-- ==== Sys2Proof/Config.lean ====
section
/-! DEFINITION. What an implementation fixes (00_scope R6) and the free values of the model. -/

namespace Sys2Proof.Config

/-- `NCH`: four channels (R6). -/
def nch : Nat := 4

/-- `PORT_BITS` as GET.CH_LEN reports it: eight bits per channel (R6, R296, decision D26). -/
def chLen : Word := 8

/-- `ADDRSPACE_COUNT` (R6, R280, decision D25). -/
def addrspaceCount : Word := 1

/-- `IRQ_REQUIRED` (R6, R282, decision D25). -/
def irqRequired : Word := 1

/-- `CH_TYPE_CODE`, an OPEN parameter (R6, R297, decision D26): nothing in the model knows its value (log 9). -/
opaque chTypeCode : Word

/-- The OPEN number behind `bufDefaultSize` (log 9). -/
opaque bufDefaultSizeOpen : Word

/-- `BUF_DEFAULT_SIZE`, an OPEN parameter of which the spec fixes only that it is at least 8 (R6, decision D30). -/
def bufDefaultSize : Word := if 8 ≤ bufDefaultSizeOpen.toNat then bufDefaultSizeOpen else 8

/-- `PORT_REG_MAP`, an OPEN parameter: channel to register offset; no rule's result depends on it (R6, R63, decision D33,
log 25). -/
opaque portRegMap : BitVec 2 → Word

/-- The byte that draw number `n` of board `b` gives: a free value (00_scope R10 `draw()`, log 5). -/
opaque freeByte : (b n : Nat) → Byte

/-- The bit that draw number `n` of board `b` gives: a free value (00_scope R10 `draw()`, log 5). -/
opaque freeBit : (b n : Nat) → Bool

/-- `MODE7_READ` (R6, decision D20): what a read returns in data storage mode 7. -/
inductive Mode7Read
  | live
  | frozen
  deriving DecidableEq, Repr

/-- What EXIT leaves in the latch and the output register of a channel it turns to Input. The spec says both: they are unknown
(46_host_surface R276), and they are kept (70_reset_and_hazards R352, decision D32). The model admits either (log 30). -/
inductive ExitRegisters
  | unknown
  | kept
  deriving DecidableEq, Repr

/-- A run of host buffer addresses that exist: `base`, ..., `base + size - 1` (R6 `HMEM`, decision D34). -/
structure HmemRegion where
  base : Nat
  size : Nat
  deriving DecidableEq, Repr

/-- The parameters a model takes as arguments (R6), and beside them the model's own choice between R276 and R352 (log 30). They
stand in the state, where no step changes them, so that a statement about every state is a statement about every value of them
(log 9). -/
structure Params where
  /-- `ADDRSPACE_WIDTH` (decision D25) -/
  addrspaceWidth : Word
  /-- `MODE7_READ` (decision D20) -/
  mode7Read : Mode7Read
  /-- `SPURIOUS_SERVICE` (decision D18) -/
  spuriousService : Bool
  /-- `HMEM`: which host byte addresses exist (decision D34) -/
  hmem : List HmemRegion
  /-- the model's own: which of R276 and R352 EXIT follows (log 30) -/
  exitRegisters : ExitRegisters
  deriving DecidableEq, Repr

/-- The defaults R6 gives; for `HMEM`, which has none, the whole 32-bit space (log 8); for EXIT, the pseudocode of R276 and vector
V46-12 (log 30). -/
def Params.default : Params :=
  { addrspaceWidth := 16
    mode7Read := .live
    spuriousService := false
    hmem := [{ base := 0, size := 2 ^ 32 }]
    exitRegisters := .unknown }

end Sys2Proof.Config
end

