-- ==== Sys2Proof/Syntax.lean ====
section
/-! DEFINITION. The 33 commands of spec/opcode_table.json (30_encoding R93, R94), one constructor a row. A command that
takes a channel carries it as a number, so that the spec's out-of-range channel can be written (R95, log 21); VAL, ADDR and
CFG are operand registers of the command port, not part of the command word (R90, R91). -/

namespace Sys2Proof

/-- The commands, in the order of the opcode table. -/
inductive Instr
  | init
  | exit
  | read (ch : Nat)
  | write (ch : Nat)
  | blkread
  | blkwrite
  | infoNspaces
  | infoSpacewidth
  | infoIrqreq
  | serviceIrq
  | getDebugLevel
  | setDebugLevel
  | getIrqEnable
  | setIrqEnable
  | getIrqCount
  | setIrqCount
  | getChDir (ch : Nat)
  | setChDir (ch : Nat)
  | getChLen (ch : Nat)
  | getChType (ch : Nat)
  | getTerm (ch : Nat)
  | setTerm (ch : Nat)
  | getEdge
  | setEdge
  | getStorage
  | setStorage
  | getSig
  | setSig
  | setSigclr
  | getBufen (ch : Nat)
  | setBufen (ch : Nat)
  | getRdSize
  | getWrSize
  deriving DecidableEq, Repr

/-- The two ports a command word can be presented on (R90). -/
inductive Port
  | command
  | interrupt
  deriving DecidableEq, Repr

/-- Why a word or a context spells no command of the block (60_exceptions R312). -/
inductive RefuseReason
  /-- bits 31:10 are not zero (R99.1) -/
  | reservedBits
  /-- an operation-class opcode that R93 does not list (R99.2) -/
  | reservedOpcode
  /-- SERVICE_IRQ on the command port (R99.3) -/
  | serviceOnCommandPort
  /-- a word other than SERVICE_IRQ on the interrupt entry port (R101) -/
  | notAnInterruptEntry
  /-- anything but INIT and the INFO queries before INIT (R270) -/
  | notInitialized
  /-- INIT while Active (R270) -/
  | alreadyInitialized
  deriving DecidableEq, Repr

/-- The channel operand of a command that takes one (R93, R94 column `ch`). -/
def Instr.channel? : Instr → Option Nat
  | .read ch | .write ch | .getChDir ch | .setChDir ch | .getChLen ch | .getChType ch
  | .getTerm ch | .setTerm ch | .getBufen ch | .setBufen ch => some ch
  | .init | .exit | .blkread | .blkwrite | .infoNspaces | .infoSpacewidth | .infoIrqreq | .serviceIrq
  | .getDebugLevel | .setDebugLevel | .getIrqEnable | .setIrqEnable | .getIrqCount | .setIrqCount
  | .getEdge | .setEdge | .getStorage | .setStorage | .getSig | .setSig | .setSigclr
  | .getRdSize | .getWrSize => none

/-- The port a command is presented on (R93: SERVICE_IRQ on the interrupt entry port only). -/
def Instr.port : Instr → Port
  | .serviceIrq => .interrupt
  | .init | .exit | .read _ | .write _ | .blkread | .blkwrite | .infoNspaces | .infoSpacewidth | .infoIrqreq
  | .getDebugLevel | .setDebugLevel | .getIrqEnable | .setIrqEnable | .getIrqCount | .setIrqCount
  | .getChDir _ | .setChDir _ | .getChLen _ | .getChType _ | .getTerm _ | .setTerm _ | .getEdge | .setEdge
  | .getStorage | .setStorage | .getSig | .setSig | .setSigclr | .getBufen _ | .setBufen _
  | .getRdSize | .getWrSize => .command

end Sys2Proof
end

