-- ==== Sys2Proof/WellFormed.lean ====
section
/-! DEFINITION. When an instruction term is one the encoding can spell: its channel fits the two bits of CMD[9:8] (R95). -/

namespace Sys2Proof

/-- A channel number the field CMD[9:8] can hold (R95). -/
def channelFits (ch : Nat) : Bool := decide (ch < Config.nch)

/-- The instruction's operands fit their fields. -/
def Instr.wellFormed (i : Instr) : Bool :=
  match i.channel? with
  | some ch => channelFits ch
  | none => true

end Sys2Proof
end

