-- ==== Sys2Proof/Decode.lean ====
section
/-! DEFINITION. The decoder of 30_encoding R101, total on every 32-bit word and port, and the encoder of R91 to R94. -/

namespace Sys2Proof

/-- What a word on a port spells (R101). -/
inductive Decoded
  /-- a command of R93 or R94 -/
  | instr (i : Instr)
  /-- no command: R99.1 to R99.3 and the interrupt port's own refusal -/
  | refuse (r : RefuseReason)
  /-- a status-class code or direction R94 does not support (R99.4) -/
  | unknownStatusCode
  deriving DecidableEq, Repr

/-- `op` = CMD[7:0] (R91). -/
def opField (w : Word) : BitVec 8 := w.extractLsb' 0 8

/-- `ch` = CMD[9:8] (R91, R95). -/
def chField (w : Word) : Nat := (w.extractLsb' 8 2).toNat

/-- `rsv` = CMD[31:10], which must be 0 (R91). -/
def rsvField (w : Word) : BitVec 22 := w.extractLsb' 10 22

/-- Operation-class opcodes of the command port (R93). -/
def decodeOperation (op ch : Nat) : Decoded :=
  match op with
  | 0x01 => .instr .init
  | 0x02 => .instr .exit
  | 0x03 => .instr (.read ch)
  | 0x04 => .instr (.write ch)
  | 0x05 => .instr .blkread
  | 0x06 => .instr .blkwrite
  | 0x08 => .instr .infoNspaces
  | 0x09 => .instr .infoSpacewidth
  | 0x0A => .instr .infoIrqreq
  | 0x0F => .refuse .serviceOnCommandPort
  | _ => .refuse .reservedOpcode

/-- Status codes in the get direction (R94). -/
def decodeGet (code ch : Nat) : Decoded :=
  match code with
  | 0x00 => .instr .getDebugLevel
  | 0x01 => .instr .getIrqEnable
  | 0x02 => .instr .getIrqCount
  | 0x03 => .instr (.getChDir ch)
  | 0x04 => .instr (.getChLen ch)
  | 0x05 => .instr (.getChType ch)
  | 0x10 => .instr (.getTerm ch)
  | 0x11 => .instr .getEdge
  | 0x12 => .instr .getStorage
  | 0x13 => .instr .getSig
  | 0x15 => .instr (.getBufen ch)
  | 0x16 => .instr .getRdSize
  | 0x17 => .instr .getWrSize
  | _ => .unknownStatusCode

/-- Status codes in the set direction (R94). -/
def decodeSet (code ch : Nat) : Decoded :=
  match code with
  | 0x00 => .instr .setDebugLevel
  | 0x01 => .instr .setIrqEnable
  | 0x02 => .instr .setIrqCount
  | 0x03 => .instr (.setChDir ch)
  | 0x10 => .instr (.setTerm ch)
  | 0x11 => .instr .setEdge
  | 0x12 => .instr .setStorage
  | 0x13 => .instr .setSig
  | 0x14 => .instr .setSigclr
  | 0x15 => .instr (.setBufen ch)
  | _ => .unknownStatusCode

/-- The decoder, in the order of R101. -/
def decode (p : Port) (w : Word) : Decoded :=
  if rsvField w ≠ 0 then .refuse .reservedBits
  else
    let op := opField w
    match p with
    | .interrupt => if op = 0x0F then .instr .serviceIrq else .refuse .notAnInterruptEntry
    | .command =>
      if op.getLsbD 7 = false then decodeOperation op.toNat (chField w)
      else if op.getLsbD 6 = false then decodeGet (op.extractLsb' 0 6).toNat (chField w)
      else decodeSet (op.extractLsb' 0 6).toNat (chField w)

/-- The instruction a row's word spells: on the command port, or on the interrupt entry port where only that port takes it
(the table's column `port`). -/
def decodeTableWord (nbits w : Nat) : Option Instr :=
  let word : Word := BitVec.ofNat 32 (w % 2 ^ nbits)
  match decode .command word with
  | .instr i => some i
  | .refuse _ | .unknownStatusCode =>
    match decode .interrupt word with
    | .instr i => some i
    | .refuse _ | .unknownStatusCode => none

/-- The opcode byte of a command (R93, R94). -/
def Instr.opcode : Instr → BitVec 8
  | .init => 0x01
  | .exit => 0x02
  | .read _ => 0x03
  | .write _ => 0x04
  | .blkread => 0x05
  | .blkwrite => 0x06
  | .infoNspaces => 0x08
  | .infoSpacewidth => 0x09
  | .infoIrqreq => 0x0A
  | .serviceIrq => 0x0F
  | .getDebugLevel => 0x80
  | .setDebugLevel => 0xC0
  | .getIrqEnable => 0x81
  | .setIrqEnable => 0xC1
  | .getIrqCount => 0x82
  | .setIrqCount => 0xC2
  | .getChDir _ => 0x83
  | .setChDir _ => 0xC3
  | .getChLen _ => 0x84
  | .getChType _ => 0x85
  | .getTerm _ => 0x90
  | .setTerm _ => 0xD0
  | .getEdge => 0x91
  | .setEdge => 0xD1
  | .getStorage => 0x92
  | .setStorage => 0xD2
  | .getSig => 0x93
  | .setSig => 0xD3
  | .setSigclr => 0xD4
  | .getBufen _ => 0x95
  | .setBufen _ => 0xD5
  | .getRdSize => 0x96
  | .getWrSize => 0x97

/-- `CMD = (ch << 8) | op` (R103), the ignored channel field 0 for commands that take no channel. -/
def encode (i : Instr) : Word :=
  (0 : BitVec 22) ++ (BitVec.ofNat 2 (i.channel?.getD 0) ++ i.opcode : BitVec 10)

end Sys2Proof
end

