-- ==== Sys2Proof/Machine/Domains.lean ====
section
/-! DEFINITION. The value domains of 30_encoding R96, the channels, and the error codes of 60_exceptions R310. -/

namespace Sys2Proof.Machine

/-- The four channels, physical ports A to D (00_scope R6). -/
inductive Channel
  | ch0
  | ch1
  | ch2
  | ch3
  deriving DecidableEq, Repr

/-- The channel's index 0..3 (R6). -/
def Channel.index : Channel → Nat
  | .ch0 => 0
  | .ch1 => 1
  | .ch2 => 2
  | .ch3 => 3

/-- The channel an index names; none for 4 or more (R95). -/
def Channel.ofNat? : Nat → Option Channel
  | 0 => some .ch0
  | 1 => some .ch1
  | 2 => some .ch2
  | 3 => some .ch3
  | _ => none

/-- The channels in ascending order (R80). -/
def Channel.all : List Channel := [.ch0, .ch1, .ch2, .ch3]

/-- The channel the harvest looks at after this one; none after channel 3 (44_isr_sequencer R222). -/
def Channel.next? : Channel → Option Channel
  | .ch0 => some .ch1
  | .ch1 => some .ch2
  | .ch2 => some .ch3
  | .ch3 => none

/-- One value for each channel. -/
structure Chans (α : Type) where
  c0 : α
  c1 : α
  c2 : α
  c3 : α
  deriving DecidableEq, Repr

/-- The value of one channel. -/
def Chans.get {α : Type} (v : Chans α) : Channel → α
  | .ch0 => v.c0
  | .ch1 => v.c1
  | .ch2 => v.c2
  | .ch3 => v.c3

/-- The same values but for one channel. -/
def Chans.set {α : Type} (v : Chans α) (c : Channel) (x : α) : Chans α :=
  match c with
  | .ch0 => { v with c0 := x }
  | .ch1 => { v with c1 := x }
  | .ch2 => { v with c2 := x }
  | .ch3 => { v with c3 := x }

/-- The values a rule gives channel by channel. -/
def Chans.ofFn {α : Type} (f : Channel → α) : Chans α :=
  { c0 := f .ch0, c1 := f .ch1, c2 := f .ch2, c3 := f .ch3 }

/-- The same value for every channel. -/
def Chans.const {α : Type} (x : α) : Chans α := { c0 := x, c1 := x, c2 := x, c3 := x }

/-- A check made on every channel's value, all of which must pass. -/
def Chans.check {α β : Type} (f : α → Option β) (v : Chans α) : Option (Chans β) :=
  match f v.c0, f v.c1, f v.c2, f v.c3 with
  | some w, some x, some y, some z => some { c0 := w, c1 := x, c2 := y, c3 := z }
  | _, _, _, _ => none

/-- A two-valued domain read from a word: 0 is the first value, 1 the second, anything else is out of range (R96). -/
def twoValued {α : Type} (zero one : α) (w : Word) : Option α :=
  if w = 0 then some zero else if w = 1 then some one else none

/-- Direction of a channel (10_state R24): Input = 0, Output = 1. -/
inductive Direction
  | input
  | output
  deriving DecidableEq, Repr

def Direction.code : Direction → Word
  | .input => 0
  | .output => 1

def Direction.ofWord? (w : Word) : Option Direction := twoValued .input .output w

/-- Termination of a channel (10_state R25): Passive = 0, Active = 1. -/
inductive Termination
  | passive
  | active
  deriving DecidableEq, Repr

def Termination.code : Termination → Word
  | .passive => 0
  | .active => 1

def Termination.ofWord? (w : Word) : Option Termination := twoValued .passive .active w

/-- Trigger edge polarity (10_state R27): Falling = 0, Rising = 1. -/
inductive TriggerEdge
  | falling
  | rising
  deriving DecidableEq, Repr

def TriggerEdge.code : TriggerEdge → Word
  | .falling => 0
  | .rising => 1

def TriggerEdge.ofWord? (w : Word) : Option TriggerEdge := twoValued .falling .rising w

/-- A bool as `RES` shows it: false = 0, true = 1 (R96). -/
def boolCode : Bool → Word
  | false => 0
  | true => 1

def boolOfWord? (w : Word) : Option Bool := twoValued false true w

/-- A data storage mode read from a word: 0..7, anything else out of range (R96, R130). -/
def modeOfWord? (w : Word) : Option (BitVec 3) := if w.toNat ≤ 7 then some (w.extractLsb' 0 3) else none

/-- Transport mode (10_state R40, R96). -/
inductive TransportMode
  | userControlled
  | ringBuffer
  | ringBufferOverwrite
  | currentValueOnly
  deriving DecidableEq, Repr

def TransportMode.code : TransportMode → Word
  | .userControlled => 0
  | .ringBuffer => 1
  | .ringBufferOverwrite => 2
  | .currentValueOnly => 3

def TransportMode.ofWord? (w : Word) : Option TransportMode :=
  if w = 0 then some .userControlled
  else if w = 1 then some .ringBuffer
  else if w = 2 then some .ringBufferOverwrite
  else if w = 3 then some .currentValueOnly
  else none

/-- The error codes a command can return in STATUS (60_exceptions R310). -/
inductive ErrCode
  | illegalParameter
  | wrongDirection
  | noChannelsEnabled
  | bufferTooSmall
  | alreadyInstalled
  | notInstalled
  | invalidTarget
  | unknownStatusCode
  | identificationMismatch
  | allocationFailure
  | bufferError
  deriving DecidableEq, Repr

/-- The number of an error code (R310). -/
def ErrCode.code : ErrCode → Word
  | .illegalParameter => 1
  | .wrongDirection => 2
  | .noChannelsEnabled => 3
  | .bufferTooSmall => 4
  | .alreadyInstalled => 5
  | .notInstalled => 6
  | .invalidTarget => 7
  | .unknownStatusCode => 8
  | .identificationMismatch => 9
  | .allocationFailure => 10
  | .bufferError => 11

end Sys2Proof.Machine
end

