-- ==== Sys2Proof/Machine/State.lean ====
section
/-! DEFINITION. The state of one block instance (10_state R21), as plain data, and its value before the first INIT. -/

namespace Sys2Proof.Machine

/-- Lifecycle of the instance (10_state R41). -/
inductive Life
  | uninit
  | active
  deriving DecidableEq, Repr

/-- The configuration store: per-channel and device-wide configuration and the derived sizes (10_state R23 to R29). The
store's values are also the module's control bits (R39). -/
structure Store where
  /-- R24 -/
  dir : Chans Direction
  /-- R25 -/
  term : Chans Termination
  /-- R26 -/
  bufEn : Chans Bool
  /-- R27 -/
  edge : TriggerEdge
  /-- R28 -/
  mode : BitVec 3
  /-- R29 -/
  idCheck : Bool
  /-- R23 -/
  readSize : BitVec 3
  /-- R23 -/
  writeSize : BitVec 3
  deriving DecidableEq, Repr

/-- The ISR sequencer register (10_state R35). -/
inductive IsrState
  /-- code 0: not servicing -/
  | idle
  /-- code 1: the next step acknowledges -/
  | ack
  /-- code 2 with the channel index `hc`: the next step examines channel `hc` -/
  | harvest (hc : Channel)
  /-- code 3: the next step delivers the notification if one is installed -/
  | notify
  /-- code 4: the next step increments the counter -/
  | count
  /-- codes 5 + k, which no run reaches (R35, log 26) -/
  | unassigned (k : Fin 3)
  deriving DecidableEq, Repr

/-- Which block command is in flight (10_state R36). -/
inductive BlkOp
  | blkread
  | blkwrite
  deriving DecidableEq, Repr

/-- The block-command cursor of the call context (10_state R36). -/
structure BlkCursor where
  op : BlkOp
  /-- the `sel` list fixed by the check step -/
  chans : List Channel
  /-- how many channels are transferred so far -/
  k : Nat
  addr : Word
  deriving DecidableEq, Repr

/-- What the transport answers to `BufRead` (20_memory R66, R67). -/
inductive BufAnswer
  | bytes (l : List Byte)
  | err (code : Word)
  deriving DecidableEq, Repr

/-- A delegated BLKREAD in flight: the blocking `BufRead(cap)` and its answer once the transport has given it
(43_block_io R192, log 11). -/
structure ReadWait where
  cap : Word
  addr : Word
  answer : Option BufAnswer
  deriving DecidableEq, Repr

/-- The buffered transport as far as the block knows it (10_state R40, 20_memory R66, R67). -/
structure Transport where
  /-- `tmode` -/
  mode : TransportMode
  /-- `tsize` -/
  size : Word
  /-- `ttimeout` -/
  timeout : Word
  /-- `thigh` -/
  high : Word
  /-- every byte put and marked ready since the transport was created, oldest first (R67, log 11) -/
  ready : List Byte
  /-- how many slots were handed out since the transport was created; it names the next slot (log 16) -/
  acquired : Nat
  deriving DecidableEq, Repr

/-- The response registers (10_state R43). -/
structure Response where
  status : Word
  res : Word
  res2 : Word
  deriving DecidableEq, Repr

/-- The INIT configuration record: every field present or absent, present ones as the numbers the host gave
(30_encoding R97, decision D37). -/
structure Cfg where
  idCheck : Option Word
  edge : Option Word
  mode : Option Word
  dir : Chans (Option Word)
  term : Chans (Option Word)
  bufEn : Chans (Option Word)
  tsize : Option Word
  tmode : Option Word
  ttimeout : Option Word
  thigh : Option Word
  deriving DecidableEq, Repr

/-- Every key absent (R97, R271 `INIT` with no field). -/
def Cfg.empty : Cfg :=
  { idCheck := none, edge := none, mode := none, dir := .const none, term := .const none, bufEn := .const none
    tsize := none, tmode := none, ttimeout := none, thigh := none }

/-- The input registers of the command port (30_encoding R90). -/
structure CommandPort where
  cmd : Word
  val : Word
  addr : Word
  cfg : Cfg
  deriving DecidableEq, Repr

/-- A write of a module control field (42_storage_mode_latch R170). -/
inductive CtrlBit
  | dir (c : Channel) (d : Direction)
  | term (c : Channel) (t : Termination)
  | edge (e : TriggerEdge)
  | mode (m : BitVec 3)
  | irqen (b : Bool)
  deriving DecidableEq, Repr

/-- The events of a run: those of 00_scope R16, and every other call of the contract of 20_memory R66 (log 15). -/
inductive Event
  | portRead (c : Channel) (v : Byte)
  | portWrite (c : Channel) (v : Byte)
  | ctrlWrite (b : CtrlBit)
  | ackIrq
  | bufMode (mode : TransportMode)
  | bufAcquire (slot : Option Nat)
  | bufPut (slot : Nat) (v : Byte)
  | bufReady (slot : Nat)
  | bufRead (cap : Word) (answer : BufAnswer)
  | notify (target : Word)
  | overrun (c : Channel)
  | memRead (a : Nat) (v : Byte)
  | memWrite (a : Nat) (v : Byte)
  | response (status res res2 : Word)
  | bufCreate (mode : TransportMode) (size timeout high : Word)
  | bufRemove
  | sigCreate (target : Word)
  | sigRemove (target : Word)
  deriving DecidableEq, Repr

/-- What the environment has fixed of its own answers; `none` is not fixed, so that a free value answers (log 6). -/
structure Env where
  /-- the pins of each channel (42 R171, 30 R103 `ENV.PINS`) -/
  pins : Chans (Option Byte)
  /-- `ID_OK` (46 R271) -/
  idOk : Option Bool
  /-- `alloc_instance()` (46 R271) -/
  allocOk : Option Bool
  /-- `create_transport(...)` (46 R271) -/
  transportOk : Option Bool
  /-- `create-with-target-id(...)` (45 R251) -/
  sigOk : Option Bool
  /-- `BufAcquire()` finds a slot (20 R68) -/
  slotFree : Option Bool
  deriving DecidableEq, Repr

/-- A move of the environment (20_memory R87, 30_encoding R103). -/
inductive EnvMove
  /-- an EdgeEvent: `ENV.EDGE`, and the one R181 admits after a polarity change (log 17) -/
  | edge
  /-- the trigger line makes a transition of this polarity (R177) -/
  | transition (p : TriggerEdge)
  /-- `ENV.PINS c = b`; `none` leaves the pins free again -/
  | pins (c : Channel) (b : Option Byte)
  /-- the transport answers the waiting `BufRead` (R67) -/
  | bufAnswer (a : BufAnswer)
  | idOk (b : Option Bool)
  | allocOk (b : Option Bool)
  | transportOk (b : Option Bool)
  | sigOk (b : Option Bool)
  | slotFree (b : Option Bool)
  /-- the caller stores a byte into its own buffer (log 19) -/
  | hostStore (a : Word) (v : Byte)
  deriving DecidableEq, Repr

/-- A call of the source's API (30_encoding R104), its channel as wide as the caller gave it (R95). -/
inductive ApiCall
  | setDirection (ch : Nat) (dir : Word)
  | getDirection (ch : Nat)
  | setTermination (ch : Nat) (term : Word)
  | getTermination (ch : Nat)
  | setBufferingEnabled (ch : Nat) (b : Word)
  | getBufferingEnabled (ch : Nat)
  | setTriggerEdge (edge : Word)
  | setDataStorageMode (mode : Word)
  | readChannel (ch : Nat)
  | writeChannel (ch : Nat) (byte : Word)
  | blockRead (buf cap : Word)
  | blockWrite (buf len : Word)
  | enable (target : Word)
  | disable
  | query
  | initialise (cfg : Cfg)
  | shutdown
  | serviceInterrupt
  deriving DecidableEq, Repr

/-- What the host and the environment have lined up for the block (log 3). -/
inductive Input
  /-- a command presented on the command port (R90) -/
  | command (p : CommandPort)
  /-- a word presented on the interrupt entry port by the dispatch layer (R90, R220) -/
  | service (w : Word)
  /-- an API call (R104) -/
  | api (a : ApiCall)
  /-- a move of the environment (R87) -/
  | env (m : EnvMove)
  /-- a turn of the block's own agents -/
  | tick
  /-- a turn of the call context, the dispatch layer not having presented an asserted request yet (decision D42, log 24) -/
  | callTurn
  deriving DecidableEq, Repr

/-- Why a behaviour the source leaves undefined was reached (60_exceptions R313). -/
inductive FaultReason
  /-- a channel operand of 4 or more (R95) -/
  | channelOutOfRange
  /-- ISR state code 5 to 7 (R35) -/
  | isrStateInvalid
  deriving DecidableEq, Repr

/-- The host buffer memory: address and byte, addresses strictly rising, no byte 0 listed (log 7). -/
abbrev Memory := List Host.Cell

/-- The state of one instance of the block. -/
structure State where
  /-- R41 -/
  life : Life
  /-- R23 to R29 -/
  store : Store
  /-- R31 -/
  irqEnable : Bool
  /-- R32 -/
  irqPending : Bool
  /-- R33 -/
  irqCount : Word
  /-- R34: 0 is none -/
  sigTarget : Word
  /-- R21, 46 R291 -/
  debugLevel : Word
  /-- R35 -/
  isr : IsrState
  /-- R36 -/
  blk : Option BlkCursor
  /-- a delegated BLKREAD in flight (43 R192) -/
  rdWait : Option ReadWait
  /-- the call context has no step left (20 R62, log 10) -/
  stuck : Bool
  /-- R37: `none` is unknown -/
  latch : Chans (Option Byte)
  /-- R38: `none` is unknown -/
  outReg : Chans (Option Byte)
  /-- R40 -/
  transport : Transport
  /-- R42: `none` is 0 -/
  faulted : Option FaultReason
  /-- R42: `none` is 0 -/
  refused : Option RefuseReason
  /-- R43 -/
  resp : Response
  /-- 30 R90 -/
  port : CommandPort
  /-- HMEM (20 R62) -/
  hmem : Memory
  /-- 00 R6 -/
  params : Config.Params
  /-- what the environment has fixed (log 6) -/
  env : Env
  /-- the model's own tag of the board, by which its free values are its own (00 R10, 60 R324, log 5) -/
  board : Nat
  /-- the model's own counter of free values taken (log 5) -/
  draws : Nat
  /-- 00 R16, oldest first -/
  events : List Event
  /-- what comes next from outside, oldest first (log 3) -/
  inbox : List Input
  deriving DecidableEq, Repr

/-- Why a step stops the machine. -/
inductive Fault
  /-- Raised by a channel transfer of a block command (Machine/Block.lean) whose host buffer byte does not exist. Safe: the
  check step of 43_block_io R191 and R200 lets no run reach it (log 27). -/
  | hmemAbsent (a : Nat)
  deriving DecidableEq, Repr

/-- Why a step has no meaning. -/
inductive Refusal
  /-- Raised by an arm of Machine/Dispatch.lean whose instruction has no meaning yet; no arm is left. Safe. -/
  | notModelled (mnemonic : String)
  deriving DecidableEq, Repr

/-- The store before the first INIT: the spec gives no value (70 R350), the model's are zero (log 2). -/
def Store.reset : Store :=
  { dir := .const .input, term := .const .passive, bufEn := .const false, edge := .falling, mode := 0, idCheck := false
    readSize := 0, writeSize := 0 }

/-- No transport before the first INIT (log 2). -/
def Transport.reset : Transport :=
  { mode := .userControlled, size := 0, timeout := 0, high := 0, ready := [], acquired := 0 }

/-- Nothing of the environment fixed (log 6). -/
def Env.free : Env :=
  { pins := .const none, idOk := none, allocOk := none, transportOk := none, sigOk := none, slotFree := none }

/-- Power-on, before the first INIT (70_reset_and_hazards R350). `life`, the unknown latches and output registers and the
two marks are the spec's; every other value is named in log 2, log 6, log 7, log 8 and log 9. -/
def State.reset : State :=
  { life := .uninit
    store := .reset
    irqEnable := false
    irqPending := false
    irqCount := 0
    sigTarget := 0
    debugLevel := 0
    isr := .idle
    blk := none
    rdWait := none
    stuck := false
    latch := .const none
    outReg := .const none
    transport := .reset
    faulted := none
    refused := none
    resp := { status := 0, res := 0, res2 := 0 }
    port := { cmd := 0, val := 0, addr := 0, cfg := .empty }
    hmem := []
    params := .default
    env := .free
    board := 0
    draws := 0
    events := []
    inbox := [] }

end Sys2Proof.Machine
end

