-- ==== Sys2Proof/Machine/Api.lean ====
section
/-! DEFINITION. The source's API names (30_encoding R104): each expands to exactly one command and its operand registers. -/

namespace Sys2Proof.Machine

/-- The command an API call expands to (R104). -/
def ApiCall.instr : ApiCall → Instr
  | .setDirection ch _ => .setChDir ch
  | .getDirection ch => .getChDir ch
  | .setTermination ch _ => .setTerm ch
  | .getTermination ch => .getTerm ch
  | .setBufferingEnabled ch _ => .setBufen ch
  | .getBufferingEnabled ch => .getBufen ch
  | .setTriggerEdge _ => .setEdge
  | .setDataStorageMode _ => .setStorage
  | .readChannel ch => .read ch
  | .writeChannel ch _ => .write ch
  | .blockRead _ _ => .blkread
  | .blockWrite _ _ => .blkwrite
  | .enable _ => .setSig
  | .disable => .setSigclr
  | .query => .getSig
  | .initialise _ => .init
  | .shutdown => .exit
  | .serviceInterrupt => .serviceIrq

/-- The operand registers an API call sets (R104). -/
def ApiCall.operands (a : ApiCall) (p : CommandPort) : CommandPort :=
  match a with
  | .setDirection _ v | .setTermination _ v | .setBufferingEnabled _ v | .setTriggerEdge v | .setDataStorageMode v
  | .writeChannel _ v | .enable v => { p with cmd := encode a.instr, val := v }
  | .blockRead buf n | .blockWrite buf n => { p with cmd := encode a.instr, val := n, addr := buf }
  | .disable => { p with cmd := encode a.instr, val := 0 }
  | .initialise cfg => { p with cmd := encode a.instr, cfg := cfg }
  | .getDirection _ | .getTermination _ | .getBufferingEnabled _ | .readChannel _ | .query | .shutdown =>
    { p with cmd := encode a.instr }
  | .serviceInterrupt => p

end Sys2Proof.Machine
end

