-- ==== Sys2Proof/Machine/Flags.lean ====
section
/-! DEFINITION. The block has no flags or condition codes (10_state R43). What a command reports, it reports in STATUS, RES
and RES2; this file writes them, and each write is the command's `response` event (00_scope R16, 30_encoding R98). -/

namespace Sys2Proof.Machine

/-- Log events, oldest first (R16). -/
def State.emit (l : List Event) (s : State) : State := { s with events := s.events ++ l }

/-- The events R16 lists; the others are calls of the contract of 20_memory R66 (log 15). -/
def Event.listed : Event → Bool
  | .portRead _ _ | .portWrite _ _ | .ctrlWrite _ | .ackIrq | .bufPut _ _ | .bufReady _ | .bufRead _ _ | .notify _ | .overrun _
  | .memRead _ _ | .memWrite _ _ | .response _ _ _ => true
  | .bufMode _ | .bufAcquire _ | .bufCreate _ _ _ _ | .bufRemove | .sigCreate _ | .sigRemove _ => false

/-- The history as R16 lists it. -/
def State.observed (s : State) : List Event := s.events.filter Event.listed

/-- Write the three response registers (R43, R98). -/
def State.respond (status res res2 : Word) (s : State) : State :=
  { s with resp := { status := status, res := res, res2 := res2 }
           events := s.events ++ [.response status res res2] }

/-- Success: STATUS 0, RES the result or 0, RES2 0 (R98). -/
def State.succeed (res : Word) (s : State) : State := s.respond 0 res 0

end Sys2Proof.Machine
end

