-- ==== Sys2Proof/Machine/Ops.lean ====
section
/-! DEFINITION. The shared operations: raising an error, refusing, marking a fault, entering and leaving the ISR, the host
buffer memory, and the channel selection with its derived sizes. -/

namespace Sys2Proof.Machine

/-! ## Errors, refusals, faults (60_exceptions R311 to R313) -/

/-- `raise Err(E)`: STATUS the code, RES and RES2 0, nothing else changed (R311). -/
def State.raiseErr (e : ErrCode) (s : State) : State := s.respond e.code 0 0

/-- `refuse(reason)`: the sticky mark with the first reason recorded, no response (R312, R42, log 4). -/
def State.refuse (r : RefuseReason) (s : State) : State :=
  { s with refused := match s.refused with
                      | some r₀ => some r₀
                      | none => some r }

/-- `fault(reason)`: the sticky mark with the first reason recorded (R313, R42, log 4). -/
def State.markFault (r : FaultReason) (s : State) : State :=
  { s with faulted := match s.faulted with
                      | some r₀ => some r₀
                      | none => some r }

/-! ## Interrupt entry and return (60_exceptions R317, R318) -/

/-- Entry saves nothing and switches no mode, stack or mask: the sequencer goes to Ack (R220, R317). -/
def State.enterIsr (s : State) : State := { s with isr := .ack }

/-- Return: the sequencer goes to Idle and no mask changes (R318). -/
def State.leaveIsr (s : State) : State := { s with isr := .idle }

/-- The request line (R315). -/
def State.request (s : State) : Bool := s.irqEnable && s.irqPending

/-- The call context is between two commands: no block command, no waiting read, not stuck (20_memory R82, R83). -/
def State.callReady (s : State) : Bool := s.blk.isNone && s.rdWait.isNone && !s.stuck

/-! ## Free values (00_scope R10 `draw()`, log 5) -/

/-- The byte drawn for channel `c` in this step. -/
def State.drawByte (s : State) (c : Channel) : Byte := Config.freeByte s.board (4 * s.draws + c.index)

/-- The `k`-th bit drawn in this step. -/
def State.drawBit (s : State) (k : Nat) : Bool := Config.freeBit s.board (4 * s.draws + k)

/-- The `k`-th question put to the environment in this step: its fixed answer, or a free value (log 6). -/
def State.answer (s : State) (a : Option Bool) (k : Nat) : Bool := a.getD (s.drawBit k)

/-! ## Host buffer memory (20_memory R62) -/

/-- The byte at an address; an unlisted address reads 0 (log 7). -/
def memByte : Memory → Nat → Byte
  | [], _ => 0
  | (k, v) :: m, a => if k = a then v else memByte m a

/-- List a byte, keeping the addresses rising. -/
def memPut : Memory → Nat → Byte → Memory
  | [], a, v => [(a, v)]
  | (k, w) :: m, a, v =>
    if a < k then (a, v) :: (k, w) :: m
    else if a = k then (a, v) :: m
    else (k, w) :: memPut m a v

/-- Unlist an address. -/
def memDrop : Memory → Nat → Memory
  | [], _ => []
  | (k, w) :: m, a => if k = a then m else (k, w) :: memDrop m a

/-- Store a byte, in the canonical form: writing what an unlisted address reads as unlists it. -/
def memSet (m : Memory) (a : Nat) (v : Byte) : Memory := if v = 0 then memDrop m a else memPut m a v

/-- Store bytes at rising addresses. -/
def memSetList : Memory → Nat → List Byte → Memory
  | m, _, [] => m
  | m, a, b :: l => memSetList (memSet m a b) (a + 1) l

/-- The canonical form: addresses strictly rising, no byte 0 listed. -/
def Memory.wf : Memory → Bool
  | [] => true
  | [(_, v)] => v != 0
  | (k, v) :: (k', v') :: m => v != 0 && decide (k < k') && Memory.wf ((k', v') :: m)

/-- A byte of `HMEM` exists: a 32-bit address in one of the parameter's runs (R62, decision D34). -/
def hmemExists (p : Config.Params) (a : Nat) : Bool :=
  decide (a < 2 ^ 32) && p.hmem.any fun r => decide (r.base ≤ a) && decide (a < r.base + r.size)

/-- `HMEM` admits the `n` bytes from `addr` on, with no wrap (R62). -/
def hmemAdmits (p : Config.Params) (addr : Word) (n : Nat) : Bool :=
  (List.range n).all fun k => hmemExists p (addr.toNat + k)

/-! ## Channel selection and derived sizes (00_scope R11, 40_config_store R121) -/

/-- `elig(c, d)` (R11). -/
def Store.elig (st : Store) (d : Direction) (c : Channel) : Bool := st.bufEn.get c && decide (st.dir.get c = d)

/-- `sel(d)`, ascending (R11). -/
def Store.sel (st : Store) (d : Direction) : List Channel := Channel.all.filter (st.elig d)

/-- `recompute()` (R121). -/
def Store.recompute (st : Store) : Store :=
  { st with readSize := BitVec.ofNat 3 (st.sel .input).length
            writeSize := BitVec.ofNat 3 (st.sel .output).length }

end Sys2Proof.Machine
end

