-- ==== Sys2Proof/Machine/Operands.lean ====
section
/-! DEFINITION. The operand forms: the lifecycle gate every call-context command passes (46_host_surface R270), the channel
operand (30_encoding R95), the range-checked value operand (R96), and the INIT record with its defaults (R97, R272). -/

namespace Sys2Proof.Machine

/-- The gate for every command but INIT and the INFO queries: in Uninit it is refused (R270). -/
def State.whenActive (s t : State) : State :=
  match s.life with
  | .active => t
  | .uninit => s.refuse .notInitialized

/-- The channel operand: 0..3 names a channel, anything else is undefined in the source and marks a fault (R95). -/
def State.withChannel (s : State) (ch : Nat) (k : Channel → State) : State :=
  match Channel.ofNat? ch with
  | some c => k c
  | none => s.markFault .channelOutOfRange

/-- A value operand checked against its domain: out of range raises IllegalParameter (R96). -/
def State.withValue {α : Type} (s : State) (v : Option α) (k : α → State) : State :=
  match v with
  | some x => k x
  | none => s.raiseErr .illegalParameter

/-- A present INIT field read in its domain, an absent one its default (R97). -/
def cfgField {α : Type} (read : Word → Option α) (dflt : α) (f : Option Word) : Option α :=
  match f with
  | some w => read w
  | none => some dflt

/-- The INIT record with every key resolved (R97, R271 `cfg.f`). -/
structure InitValues where
  idCheck : Bool
  edge : TriggerEdge
  mode : BitVec 3
  dir : Chans Direction
  term : Chans Termination
  bufEn : Chans Bool
  tsize : Word
  tmode : TransportMode
  ttimeout : Word
  thigh : Word
  deriving DecidableEq, Repr

/-- INIT validation: none if any present field is out of range (R272), else each field's value or default (R97). -/
def Cfg.resolve (c : Cfg) : Option InitValues :=
  match cfgField boolOfWord? true c.idCheck, cfgField TriggerEdge.ofWord? .falling c.edge, cfgField modeOfWord? 0 c.mode,
    Chans.check (cfgField Direction.ofWord? .input) c.dir, Chans.check (cfgField Termination.ofWord? .passive) c.term,
    Chans.check (cfgField boolOfWord? true) c.bufEn, cfgField TransportMode.ofWord? .userControlled c.tmode with
  | some idCheck, some edge, some mode, some dir, some term, some bufEn, some tmode =>
    some { idCheck := idCheck, edge := edge, mode := mode, dir := dir, term := term, bufEn := bufEn, tmode := tmode
           tsize := c.tsize.getD Config.bufDefaultSize, ttimeout := c.ttimeout.getD 0, thigh := c.thigh.getD 0 }
  | _, _, _, _, _, _, _ => none

end Sys2Proof.Machine
end

