-- ==== Sys2Proof/Machine/Module.lean ====
section
/-! DEFINITION. The I/O module behind its primitives (42_storage_mode_latch): the latch classes, PortRead, PortWrite, the
trigger edge and the acknowledge. -/

namespace Sys2Proof.Machine

/-- The six latch classes (R174). -/
inductive LatchClass
  | ownRead
  | group0
  | follower
  | edge
  | transparent
  | unspec
  deriving DecidableEq, Repr

/-- `class(mode, c)`, the table of R174. -/
def latchClass (mode : BitVec 3) (c : Channel) : LatchClass :=
  match mode.toNat with
  | 0 => .ownRead
  | 1 => match c with
    | .ch0 => .group0
    | .ch1 | .ch2 | .ch3 => .follower
  | 2 => match c with
    | .ch0 | .ch1 | .ch2 => .ownRead
    | .ch3 => .edge
  | 3 => match c with
    | .ch0 | .ch1 => .ownRead
    | .ch2 | .ch3 => .edge
  | 4 => match c with
    | .ch0 => .ownRead
    | .ch1 | .ch2 | .ch3 => .edge
  | 5 => .edge
  | 6 => .unspec
  | _ => .transparent

/-- `pin(c)` in this step: an Output channel's pins carry `outReg[c]`, an Input channel's what the environment has fixed;
a free value where neither is known (R171). -/
def State.pin (s : State) (c : Channel) : Byte :=
  match s.store.dir.get c with
  | .output => (s.outReg.get c).getD (s.drawByte c)
  | .input => (s.env.pins.get c).getD (s.drawByte c)

/-- `val(latch[c])`: the latch, or a free value while it is unknown (R175). -/
def State.latchVal (s : State) (c : Channel) : Byte := (s.latch.get c).getD (s.drawByte c)

/-- The byte a read of channel `c`'s port returns (R175). -/
def State.portValue (s : State) (c : Channel) : Byte :=
  match latchClass s.store.mode c with
  | .ownRead => s.pin c
  | .group0 => s.pin .ch0
  | .follower => s.latchVal c
  | .edge => s.latchVal c
  | .transparent =>
    match s.params.mode7Read with
    | .live => s.pin c
    | .frozen => s.latchVal c
  | .unspec => s.drawByte c

/-- What a read of channel `c`'s port leaves in the latches (R175). -/
def State.latchesAfterRead (s : State) (c : Channel) : Chans (Option Byte) :=
  match latchClass s.store.mode c with
  | .ownRead => s.latch.set c (some (s.pin c))
  | .group0 => .ofFn fun k => some (s.pin k)
  | .follower | .edge | .transparent | .unspec => s.latch

/-- `PortRead(c)`: the latch side effects and the event; the value is `portValue` of the state before (R175). -/
def State.portRead (c : Channel) (s : State) : State :=
  { s with latch := s.latchesAfterRead c
           draws := s.draws + 1
           events := s.events ++ [.portRead c (s.portValue c)] }

/-- `PortWrite(c, b)` (R176). -/
def State.portWrite (c : Channel) (b : Byte) (s : State) : State :=
  { s with outReg := s.outReg.set c (some b)
           events := s.events ++ [.portWrite c b] }

/-- What a trigger edge leaves in channel `c`'s latch (R177). -/
def State.latchAfterEdge (s : State) (c : Channel) : Option Byte :=
  match latchClass s.store.mode c with
  | .edge => some (s.pin c)
  | .unspec => none
  | .ownRead | .group0 | .follower | .transparent => s.latch.get c

/-- `EdgeEvent` (R177). -/
def State.edgeEvent (s : State) : State :=
  { s with latch := .ofFn s.latchAfterEdge
           irqPending := if s.irqEnable then true else s.irqPending || s.drawBit 0
           draws := s.draws + 1 }

/-- `AckIrq()` (R178). -/
def State.ackIrq (s : State) : State :=
  { s with irqPending := false
           events := s.events ++ [.ackIrq] }

end Sys2Proof.Machine
end

