-- ==== Sys2Proof/Machine/Block.lean ====
section
/-! DEFINITION. Block I/O (43_block_io): the check steps of BLKREAD and BLKWRITE, the delegated read, and the steps the call
context takes while a block command is in flight. -/

namespace Sys2Proof.Machine

/-- The channels a block command reaches (R191, R200): BLKREAD the Input ones, BLKWRITE the Output ones. -/
def BlkOp.direction : BlkOp → Direction
  | .blkread => .input
  | .blkwrite => .output

/-- The size a block command is checked against (R191, R200). -/
def BlkOp.size (op : BlkOp) (st : Store) : BitVec 3 :=
  match op with
  | .blkread => st.readSize
  | .blkwrite => st.writeSize

/-- What a direct block command that goes on has asked the transport: BLKREAD its mode, BLKWRITE nothing (R190, R200, R66). -/
def BlkOp.queries (op : BlkOp) (m : TransportMode) : List Event :=
  match op with
  | .blkread => [.bufMode m]
  | .blkwrite => []

/-- The check step of a direct block command (R191, R200): its two errors in order, then the host buffer, which leaves the
call context with no step where it does not exist (R62, log 10), then the cursor. A failing command has made no transport access
(R201(c), log 15). -/
def State.startBlock (op : BlkOp) (s : State) : State :=
  if op.size s.store = 0 then s.raiseErr .noChannelsEnabled
  else if s.port.val.toNat < (op.size s.store).toNat then s.raiseErr .bufferTooSmall
  else if hmemAdmits s.params s.port.addr (op.size s.store).toNat then
    { s with blk := some { op := op, chans := s.store.sel op.direction, k := 0, addr := s.port.addr }
             events := s.events ++ op.queries s.transport.mode }
  else { s with stuck := true }

/-- The wait step of the delegated read: the mode has been asked, `BufRead(VAL)` is called and the call context waits (R190, R192,
R66, R67). -/
def State.startWait (s : State) : State :=
  { s with rdWait := some { cap := s.port.val, addr := s.port.addr, answer := none }
           events := s.events ++ [.bufMode s.transport.mode] }

/-- BLKREAD (R190): the transport mode alone chooses the path. -/
def execBlkread (s : State) : Host.Outcome State Fault Refusal :=
  .next <| s.whenActive <|
    match s.transport.mode with
    | .userControlled => s.startBlock .blkread
    | .ringBuffer | .ringBufferOverwrite | .currentValueOnly => s.startWait

/-- BLKWRITE (R200): always direct. -/
def execBlkwrite (s : State) : Host.Outcome State Fault Refusal :=
  .next <| s.whenActive <| s.startBlock .blkwrite

/-- One channel's transfer: PortRead then MemWrite, or MemRead then PortWrite (R191, R200, R63). -/
def State.transferByte (op : BlkOp) (c : Channel) (a : Nat) (s : State) : State :=
  match op with
  | .blkread =>
    { s.portRead c with hmem := memSet s.hmem a (s.portValue c)
                        events := (s.portRead c).events ++ [.memWrite a (s.portValue c)] }
  | .blkwrite => (s.emit [.memRead a (memByte s.hmem a)]).portWrite c (memByte s.hmem a)

/-- After a transfer: the cursor moves on, or the command ends with its response (R191, R200). -/
def State.advanceBlock (cur : BlkCursor) (s : State) : State :=
  if cur.k + 1 = cur.chans.length then
    { s with blk := none }.succeed (BitVec.ofNat 32 cur.chans.length)
  else { s with blk := some { cur with k := cur.k + 1 } }

/-- One transfer step (R191, R200). A cursor with no channel left has no step (log 18); a host byte that does not exist stops
the machine (log 27). No run reaches either. -/
def transferStep (cur : BlkCursor) (s : State) : Host.Outcome State Fault Refusal :=
  match cur.chans[cur.k]? with
  | none => .next s
  | some c =>
    if hmemExists s.params (cur.addr.toNat + cur.k) then
      .next ((s.transferByte cur.op c (cur.addr.toNat + cur.k)).advanceBlock cur)
    else .fault (.hmemAbsent (cur.addr.toNat + cur.k))

/-- The `MemWrite` events of consecutive bytes. -/
def memWriteEvents : Nat → List Byte → List Event
  | _, [] => []
  | a, b :: l => .memWrite a b :: memWriteEvents (a + 1) l

/-- The delegated read's completing step, once the transport has answered (R192). -/
def State.finishWait (w : ReadWait) (r : BufAnswer) (s : State) : State :=
  match r with
  | .err code => { s with rdWait := none }.respond ErrCode.bufferError.code code 0
  | .bytes l =>
    if hmemAdmits s.params w.addr l.length then
      { s with rdWait := none
               hmem := memSetList s.hmem w.addr.toNat l
               events := s.events ++ memWriteEvents w.addr.toNat l }.respond 0 (BitVec.ofNat 32 l.length) s.transport.mode.code
    else { s with stuck := true }

/-- The call context's turn inside a block command; with nothing to do it waits (R82, 70 R350). -/
def callStep (s : State) : Host.Outcome State Fault Refusal :=
  if s.stuck then .next s
  else
    match s.blk with
    | some cur => transferStep cur s
    | none =>
      match s.rdWait with
      | some { cap, addr, answer := some r } => .next (s.finishWait { cap := cap, addr := addr, answer := some r } r)
      | some { cap := _, addr := _, answer := none } => .next s
      | none => .next s

end Sys2Proof.Machine
end

