-- ==== Sys2Proof/Machine/ConfigStore.lean ====
section
/-! DEFINITION. The channel configuration store (40_config_store): SET and GET of direction, termination, buffering, edge and
storage mode, and the block sizes. Each command is one atomic step (R81, R120). -/

namespace Sys2Proof.Machine

/-- Write a direction: the store with its sizes, the latch and output register of a channel whose direction changes, and the
control bit (R122, R180). -/
def State.setDir (c : Channel) (d : Direction) (s : State) : State :=
  { s with latch := if s.store.dir.get c = d then s.latch else s.latch.set c none
           outReg := if s.store.dir.get c = d then s.outReg else s.outReg.set c none
           store := { s.store with dir := s.store.dir.set c d }.recompute
           events := s.events ++ [.ctrlWrite (.dir c d)] }

/-- SET.CH_DIR (R122). -/
def execSetChDir (ch : Nat) (s : State) : Host.Outcome State Fault Refusal :=
  .next <| s.whenActive <| s.withChannel ch fun c =>
    s.withValue (Direction.ofWord? s.port.val) fun d => (s.setDir c d).succeed 0

/-- GET.CH_DIR (R123). -/
def execGetChDir (ch : Nat) (s : State) : Host.Outcome State Fault Refusal :=
  .next <| s.whenActive <| s.withChannel ch fun c => s.succeed (s.store.dir.get c).code

/-- Write a termination and its control bit (R124). -/
def State.setTerm (c : Channel) (t : Termination) (s : State) : State :=
  { s with store := { s.store with term := s.store.term.set c t }
           events := s.events ++ [.ctrlWrite (.term c t)] }

/-- SET.TERM (R124). -/
def execSetTerm (ch : Nat) (s : State) : Host.Outcome State Fault Refusal :=
  .next <| s.whenActive <| s.withChannel ch fun c =>
    s.withValue (Termination.ofWord? s.port.val) fun t => (s.setTerm c t).succeed 0

/-- GET.TERM (R125). -/
def execGetTerm (ch : Nat) (s : State) : Host.Outcome State Fault Refusal :=
  .next <| s.whenActive <| s.withChannel ch fun c => s.succeed (s.store.term.get c).code

/-- Write a buffering flag and the sizes; the module has no bit for it (R126). -/
def State.setBufEn (c : Channel) (b : Bool) (s : State) : State :=
  { s with store := { s.store with bufEn := s.store.bufEn.set c b }.recompute }

/-- SET.BUFEN (R126). -/
def execSetBufen (ch : Nat) (s : State) : Host.Outcome State Fault Refusal :=
  .next <| s.whenActive <| s.withChannel ch fun c =>
    s.withValue (boolOfWord? s.port.val) fun b => (s.setBufEn c b).succeed 0

/-- GET.BUFEN (R127). -/
def execGetBufen (ch : Nat) (s : State) : Host.Outcome State Fault Refusal :=
  .next <| s.whenActive <| s.withChannel ch fun c => s.succeed (boolCode (s.store.bufEn.get c))

/-- Write the trigger edge and its control bit (R128). -/
def State.setEdge (e : TriggerEdge) (s : State) : State :=
  { s with store := { s.store with edge := e }
           events := s.events ++ [.ctrlWrite (.edge e)] }

/-- SET.EDGE (R128). -/
def execSetEdge (s : State) : Host.Outcome State Fault Refusal :=
  .next <| s.whenActive <| s.withValue (TriggerEdge.ofWord? s.port.val) fun e => (s.setEdge e).succeed 0

/-- GET.EDGE (R129). -/
def execGetEdge (s : State) : Host.Outcome State Fault Refusal :=
  .next <| s.whenActive <| s.succeed s.store.edge.code

/-- Write the data storage mode and its control field; a change makes every latch unknown (R130, R179). -/
def State.setMode (m : BitVec 3) (s : State) : State :=
  { s with latch := if s.store.mode = m then s.latch else .const none
           store := { s.store with mode := m }
           events := s.events ++ [.ctrlWrite (.mode m)] }

/-- SET.STORAGE (R130). -/
def execSetStorage (s : State) : Host.Outcome State Fault Refusal :=
  .next <| s.whenActive <| s.withValue (modeOfWord? s.port.val) fun m => (s.setMode m).succeed 0

/-- GET.STORAGE (R131). -/
def execGetStorage (s : State) : Host.Outcome State Fault Refusal :=
  .next <| s.whenActive <| s.succeed (s.store.mode.setWidth 32)

/-- GET.RD_SIZE (R132). -/
def execGetRdSize (s : State) : Host.Outcome State Fault Refusal :=
  .next <| s.whenActive <| s.succeed (s.store.readSize.setWidth 32)

/-- GET.WR_SIZE (R133). -/
def execGetWrSize (s : State) : Host.Outcome State Fault Refusal :=
  .next <| s.whenActive <| s.succeed (s.store.writeSize.setWidth 32)

end Sys2Proof.Machine
end

