-- ==== Sys2Proof/Machine/DirectIo.lean ====
section
/-! DEFINITION. Direct I/O through the channel direction multiplexer (41_direct_io R150 to R152). -/

namespace Sys2Proof.Machine

/-- READ (R150): the direction check comes before the port access. -/
def execRead (ch : Nat) (s : State) : Host.Outcome State Fault Refusal :=
  .next <| s.whenActive <| s.withChannel ch fun c =>
    match s.store.dir.get c with
    | .input => (s.portRead c).succeed ((s.portValue c).setWidth 32)
    | .output => s.raiseErr .wrongDirection

/-- WRITE (R151): the low eight bits of VAL. -/
def execWrite (ch : Nat) (s : State) : Host.Outcome State Fault Refusal :=
  .next <| s.whenActive <| s.withChannel ch fun c =>
    match s.store.dir.get c with
    | .output => (s.portWrite c (s.port.val.extractLsb' 0 8)).succeed 0
    | .input => s.raiseErr .wrongDirection

end Sys2Proof.Machine
end

