-- ==== Sys2Proof/Machine/HostSurface.lean ====
section
/-! DEFINITION. The host surface (46_host_surface): INIT and EXIT, the capability queries, and the device status codes. -/

namespace Sys2Proof.Machine

/-- The control writes of INIT, in the order of R271. -/
def initCtrlWrites (v : InitValues) : List Event :=
  Channel.all.flatMap (fun c => [.ctrlWrite (.dir c (v.dir.get c)), .ctrlWrite (.term c (v.term.get c))]) ++
    [.ctrlWrite (.edge v.edge), .ctrlWrite (.mode v.mode), .ctrlWrite (.irqen false)]

/-- INIT's fourth part: the store and the module programmed together (R271, R351). -/
def State.program (v : InitValues) (s : State) : State :=
  { s with
      life := .active
      store := { dir := v.dir, term := v.term, bufEn := v.bufEn, edge := v.edge, mode := v.mode, idCheck := v.idCheck
                 readSize := 0, writeSize := 0 : Store }.recompute
      latch := .const none
      outReg := .const none
      irqEnable := false
      irqPending := s.drawBit 3
      irqCount := 0
      sigTarget := 0
      debugLevel := 0
      isr := .idle
      blk := none
      rdWait := none
      stuck := false
      transport := { mode := v.tmode, size := v.tsize, timeout := v.ttimeout, high := v.thigh, ready := [], acquired := 0 }
      draws := s.draws + 1
      events := s.events ++ .bufCreate v.tmode v.tsize v.ttimeout v.thigh :: initCtrlWrites v }

/-- INIT with a valid record: the identification check, the two allocations, the programming (R271). The answers come from the
environment; an attempt that fails has taken its draws too (log 22). -/
def State.initialise (v : InitValues) (s : State) : State :=
  if v.idCheck && !s.answer s.env.idOk 0 then { s with draws := s.draws + 1 }.raiseErr .identificationMismatch
  else if !s.answer s.env.allocOk 1 then { s with draws := s.draws + 1 }.raiseErr .allocationFailure
  else if !s.answer s.env.transportOk 2 then { s with draws := s.draws + 1 }.raiseErr .allocationFailure
  else (s.program v).succeed 0

/-- INIT (R271), refused while Active (R270). -/
def execInit (s : State) : Host.Outcome State Fault Refusal :=
  .next <|
    match s.life with
    | .active => s.refuse .alreadyInitialized
    | .uninit => s.withValue s.port.cfg.resolve fun v => s.initialise v

/-- The control writes of EXIT, in the order of R276. -/
def exitCtrlWrites : List Event :=
  Channel.all.flatMap (fun c => [.ctrlWrite (.dir c .input), .ctrlWrite (.term c .passive)]) ++ [.ctrlWrite (.irqen false)]

/-- What EXIT leaves of a latch or output register: an Input channel keeps it. The one of a channel that EXIT turns to Input is
unknown (R276) or kept (R352, decision D32); the spec states both and `params.exitRegisters` says which: the model's choice
(log 30). -/
def State.keptOnExit (s : State) (r : Chans (Option Byte)) (c : Channel) : Option Byte :=
  match s.store.dir.get c, s.params.exitRegisters with
  | .input, _ => r.get c
  | .output, .kept => r.get c
  | .output, .unknown => none

/-- EXIT's one step: the safe state, the notification and the transport removed (R276, R352, log 12, log 29). The rules call the
store destroyed and name no value for `idCheck`, `bufEn`, `irqCount` and `debugLevel` until the next INIT: that they keep their old
ones is the model's choice (log 31). -/
def State.shutdown (s : State) : State :=
  { s with
      life := .uninit
      store := { s.store with dir := .const .input, term := .const .passive }.recompute
      latch := .ofFn (s.keptOnExit s.latch)
      outReg := .ofFn (s.keptOnExit s.outReg)
      irqEnable := false
      sigTarget := 0
      transport := { s.transport with ready := [], acquired := 0 }
      events := s.events ++ exitCtrlWrites ++ (if s.sigTarget = 0 then [] else [.sigRemove s.sigTarget]) ++ [.bufRemove] }

/-- EXIT (R276). -/
def execExit (s : State) : Host.Outcome State Fault Refusal :=
  .next <| s.whenActive <| s.shutdown.succeed 0

/-- INFO.NSPACES (R280), in both lifecycle states (R270). -/
def execInfoNspaces (s : State) : Host.Outcome State Fault Refusal :=
  .next (s.succeed Config.addrspaceCount)

/-- INFO.SPACEWIDTH (R281), in both lifecycle states (R270). -/
def execInfoSpacewidth (s : State) : Host.Outcome State Fault Refusal :=
  .next (if Config.addrspaceCount.toNat ≤ s.port.val.toNat then s.raiseErr .illegalParameter
         else s.succeed s.params.addrspaceWidth)

/-- INFO.IRQREQ (R282), in both lifecycle states (R270). -/
def execInfoIrqreq (s : State) : Host.Outcome State Fault Refusal :=
  .next (s.succeed Config.irqRequired)

/-- GET.DEBUG_LEVEL (R290). -/
def execGetDebugLevel (s : State) : Host.Outcome State Fault Refusal :=
  .next <| s.whenActive <| s.succeed s.debugLevel

/-- SET.DEBUG_LEVEL (R291). -/
def execSetDebugLevel (s : State) : Host.Outcome State Fault Refusal :=
  .next <| s.whenActive <| { s with debugLevel := s.port.val }.succeed 0

/-- GET.IRQ_ENABLE (R292). -/
def execGetIrqEnable (s : State) : Host.Outcome State Fault Refusal :=
  .next <| s.whenActive <| s.succeed (boolCode s.irqEnable)

/-- Write the interrupt enable and its control bit (R293). -/
def State.setIrqEnable (b : Bool) (s : State) : State :=
  { s with irqEnable := b, events := s.events ++ [.ctrlWrite (.irqen b)] }

/-- SET.IRQ_ENABLE (R293). -/
def execSetIrqEnable (s : State) : Host.Outcome State Fault Refusal :=
  .next <| s.whenActive <| s.withValue (boolOfWord? s.port.val) fun b => (s.setIrqEnable b).succeed 0

/-- GET.IRQ_COUNT (R294). -/
def execGetIrqCount (s : State) : Host.Outcome State Fault Refusal :=
  .next <| s.whenActive <| s.succeed s.irqCount

/-- SET.IRQ_COUNT (R295). -/
def execSetIrqCount (s : State) : Host.Outcome State Fault Refusal :=
  .next <| s.whenActive <| { s with irqCount := s.port.val }.succeed 0

/-- GET.CH_LEN (R296). -/
def execGetChLen (ch : Nat) (s : State) : Host.Outcome State Fault Refusal :=
  .next <| s.whenActive <| s.withChannel ch fun _ => s.succeed Config.chLen

/-- GET.CH_TYPE (R297). -/
def execGetChType (ch : Nat) (s : State) : Host.Outcome State Fault Refusal :=
  .next <| s.whenActive <| s.withChannel ch fun _ => s.succeed Config.chTypeCode

end Sys2Proof.Machine
end

