-- ==== Sys2Proof/Machine/Isr.lean ====
section
/-! DEFINITION. The interrupt dispatcher and ISR sequencer (44_isr_sequencer R220 to R227). -/

namespace Sys2Proof.Machine

/-- When the dispatch layer can present SERVICE_IRQ (R220). Every state between two steps is a step boundary (R82). -/
def State.serviceEnabled (s : State) : Bool :=
  decide (s.life = .active) && decide (s.isr = .idle) && (s.request || s.params.spuriousService)

/-- SERVICE_IRQ (R220): entry where it is enabled, no entry where it is not (log 14). -/
def execServiceIrq (s : State) : Host.Outcome State Fault Refusal :=
  .next (if s.serviceEnabled then s.enterIsr else s)

/-- Step Ack (R221). -/
def State.isrAck (s : State) : State := { s.ackIrq with isr := .harvest .ch0 }

/-- The sequencer state after channel `c`'s harvest (R222 `next`). -/
def IsrState.afterHarvest (c : Channel) : IsrState :=
  match c.next? with
  | some d => .harvest d
  | none => .notify

/-- Step Harvest (R222): the slot is acquired before the port is read; no slot ends the harvest of this event. -/
def State.isrHarvest (c : Channel) (s : State) : State :=
  if s.store.elig .input c then
    if s.answer s.env.slotFree 0 then
      { s.portRead c with
          events := s.events ++ [.bufAcquire (some s.transport.acquired), .portRead c (s.portValue c),
            .bufPut s.transport.acquired (s.portValue c), .bufReady s.transport.acquired]
          transport := { s.transport with ready := s.transport.ready ++ [s.portValue c]
                                          acquired := s.transport.acquired + 1 }
          isr := IsrState.afterHarvest c }
    else { s with isr := .notify, draws := s.draws + 1, events := s.events ++ [.bufAcquire none, .overrun c] }
  else { s with isr := IsrState.afterHarvest c }

/-- Step Notify (R223). -/
def State.isrNotify (s : State) : State :=
  if s.sigTarget = 0 then { s with isr := .count }
  else { s with isr := .count, events := s.events ++ [.notify s.sigTarget] }

/-- Step Count, which is also the return (R224, R318). -/
def State.isrCount (s : State) : State := { s with irqCount := s.irqCount + 1 }.leaveIsr

/-- One step of the sequencer; an unassigned code marks a fault (R35, R313, log 26). -/
def State.isrStep (s : State) : State :=
  match s.isr with
  | .idle => s
  | .ack => s.isrAck
  | .harvest c => s.isrHarvest c
  | .notify => s.isrNotify
  | .count => s.isrCount
  | .unassigned _ => s.markFault .isrStateInvalid

end Sys2Proof.Machine
end

