-- ==== Sys2Proof/Machine/Notification.lean ====
section
/-! DEFINITION. Trigger notification control (45_notification R250 to R253). -/

namespace Sys2Proof.Machine

/-- GET.SIG (R250). -/
def execGetSig (s : State) : Host.Outcome State Fault Refusal :=
  .next <| s.whenActive <| s.succeed s.sigTarget

/-- SET.SIG past its two checks: the notification capability creates the target, or cannot (R251, decision D31). -/
def State.createSig (s : State) : State :=
  if s.answer s.env.sigOk 0 then
    { s with sigTarget := s.port.val, draws := s.draws + 1, events := s.events ++ [.sigCreate s.port.val] : State }.succeed 0
  else { s with draws := s.draws + 1 }.raiseErr .allocationFailure

/-- SET.SIG (R251), its errors in the rule's order. -/
def execSetSig (s : State) : Host.Outcome State Fault Refusal :=
  .next <| s.whenActive <|
    if s.port.val = 0 then s.raiseErr .invalidTarget
    else if s.sigTarget ≠ 0 then s.raiseErr .alreadyInstalled
    else s.createSig

/-- SET.SIGCLR (R252). -/
def execSetSigclr (s : State) : Host.Outcome State Fault Refusal :=
  .next <| s.whenActive <|
    if s.sigTarget = 0 then s.raiseErr .notInstalled
    else { s with sigTarget := 0, events := s.events ++ [.sigRemove s.sigTarget] : State }.succeed 0

end Sys2Proof.Machine
end

