-- ==== Sys2Proof/Machine/Dispatch.lean ====
section
/-! DEFINITION. One arm for each command of the opcode table. -/

namespace Sys2Proof.Machine

def exec (i : Instr) (s : State) : Host.Outcome State Fault Refusal :=
  match i with
  | .init => Sys2Proof.Machine.execInit s
  | .exit => Sys2Proof.Machine.execExit s
  | .read ch => Sys2Proof.Machine.execRead ch s
  | .write ch => Sys2Proof.Machine.execWrite ch s
  | .blkread => Sys2Proof.Machine.execBlkread s
  | .blkwrite => Sys2Proof.Machine.execBlkwrite s
  | .infoNspaces => Sys2Proof.Machine.execInfoNspaces s
  | .infoSpacewidth => Sys2Proof.Machine.execInfoSpacewidth s
  | .infoIrqreq => Sys2Proof.Machine.execInfoIrqreq s
  | .serviceIrq => Sys2Proof.Machine.execServiceIrq s
  | .getDebugLevel => Sys2Proof.Machine.execGetDebugLevel s
  | .setDebugLevel => Sys2Proof.Machine.execSetDebugLevel s
  | .getIrqEnable => Sys2Proof.Machine.execGetIrqEnable s
  | .setIrqEnable => Sys2Proof.Machine.execSetIrqEnable s
  | .getIrqCount => Sys2Proof.Machine.execGetIrqCount s
  | .setIrqCount => Sys2Proof.Machine.execSetIrqCount s
  | .getChDir ch => Sys2Proof.Machine.execGetChDir ch s
  | .setChDir ch => Sys2Proof.Machine.execSetChDir ch s
  | .getChLen ch => Sys2Proof.Machine.execGetChLen ch s
  | .getChType ch => Sys2Proof.Machine.execGetChType ch s
  | .getTerm ch => Sys2Proof.Machine.execGetTerm ch s
  | .setTerm ch => Sys2Proof.Machine.execSetTerm ch s
  | .getEdge => Sys2Proof.Machine.execGetEdge s
  | .setEdge => Sys2Proof.Machine.execSetEdge s
  | .getStorage => Sys2Proof.Machine.execGetStorage s
  | .setStorage => Sys2Proof.Machine.execSetStorage s
  | .getSig => Sys2Proof.Machine.execGetSig s
  | .setSig => Sys2Proof.Machine.execSetSig s
  | .setSigclr => Sys2Proof.Machine.execSetSigclr s
  | .getBufen ch => Sys2Proof.Machine.execGetBufen ch s
  | .setBufen ch => Sys2Proof.Machine.execSetBufen ch s
  | .getRdSize => Sys2Proof.Machine.execGetRdSize s
  | .getWrSize => Sys2Proof.Machine.execGetWrSize s

end Sys2Proof.Machine
end

