-- ==== Sys2Proof/Machine/Environment.lean ====
section
/-! DEFINITION. The moves of the environment (00_scope R15, 20_memory R87, 30_encoding R103). -/

namespace Sys2Proof.Machine

/-- What R67 lets the transport answer: at most `cap` bytes, each of them put and marked ready before, or an error code. -/
def BufAnswer.admissible (a : BufAnswer) (cap : Word) (ready : List Byte) : Bool :=
  match a with
  | .bytes l => decide (l.length ≤ cap.toNat) && l.all fun b => decide (b ∈ ready)
  | .err _ => true

/-- The transport answers the waiting `BufRead`; an answer R67 does not let it give, or one nobody waits for, is no move of the
transport and changes nothing (log 11). -/
def State.takeBufAnswer (a : BufAnswer) (s : State) : State :=
  match s.rdWait with
  | some { cap, addr, answer := none } =>
    if a.admissible cap s.transport.ready then
      { s with rdWait := some { cap := cap, addr := addr, answer := some a }
               events := s.events ++ [.bufRead cap a] }
    else s
  | some { cap := _, addr := _, answer := some _ } => s
  | none => s

/-- The caller stores a byte into its own buffer, where the byte exists (log 19). -/
def State.hostStore (a : Word) (v : Byte) (s : State) : State :=
  if hmemExists s.params a.toNat then { s with hmem := memSet s.hmem a.toNat v } else s

/-- One move of the environment. -/
def State.envMove (m : EnvMove) (s : State) : State :=
  match m with
  | .edge => s.edgeEvent
  | .transition p => if p = s.store.edge then s.edgeEvent else s
  | .pins c b => { s with env := { s.env with pins := s.env.pins.set c b } }
  | .bufAnswer a => s.takeBufAnswer a
  | .idOk b => { s with env := { s.env with idOk := b } }
  | .allocOk b => { s with env := { s.env with allocOk := b } }
  | .transportOk b => { s with env := { s.env with transportOk := b } }
  | .sigOk b => { s with env := { s.env with sigOk := b } }
  | .slotFree b => { s with env := { s.env with slotFree := b } }
  | .hostStore a v => s.hostStore a v

end Sys2Proof.Machine
end

