-- ==== Sys2Proof/Machine/Agents.lean ====
section
/-! DEFINITION. Who moves next (00_scope R15, 20_memory R82, R83, R87, 60_exceptions R316): presenting a word on a port,
the block's own agents, and one input of the line-up. -/

namespace Sys2Proof.Machine

/-- What a decoded word does (R101), the lifecycle gate first (R270, log 13). -/
def runDecoded (d : Decoded) (s : State) : Host.Outcome State Fault Refusal :=
  match d with
  | .instr i => exec i s
  | .refuse r => .next (s.whenActive (s.refuse r))
  | .unknownStatusCode => .next (s.whenActive (s.raiseErr .unknownStatusCode))

/-- The call context takes the presented command: the port's registers hold it, and its word is decoded (R90, R101). -/
def takeCommand (p : CommandPort) (s : State) : Host.Outcome State Fault Refusal :=
  runDecoded (decode .command p.cmd) { s with port := p }

/-- The dispatch layer's word on the interrupt entry port (R90, R101, R220). -/
def takeService (w : Word) (s : State) : Host.Outcome State Fault Refusal :=
  runDecoded (decode .interrupt w) s

/-- An API call: its one command with its operands (R104). The instruction is run as the caller gave its channel, so that one
of 4 or more is the spec's fault (R95). -/
def takeApi (a : ApiCall) (s : State) : Host.Outcome State Fault Refusal :=
  exec a.instr { s with port := a.operands s.port }

/-- The block's own agents: a running ISR goes on (R83); else an asserted request is presented and enters at this step boundary
(R316, R220, decision D42, log 24); else the call context goes on with its block command, or waits (log 3). -/
def ownStep (s : State) : Host.Outcome State Fault Refusal :=
  match s.isr with
  | .idle => if s.life = .active && s.request then execServiceIrq s else callStep s
  | .ack | .harvest _ | .notify | .count | .unassigned _ => .next s.isrStep

/-- A host call is taken only between two commands and with the ISR idle (R83, R90, R201). -/
def State.callBoundary (s : State) : Bool := decide (s.isr = .idle) && s.callReady

/-- One step of the machine: the head of the line-up moves if it may, else the block's own agents do (log 3). -/
def inboxStep (s : State) : Host.Outcome State Fault Refusal :=
  match s.inbox with
  | [] => ownStep s
  | .tick :: rest => ownStep { s with inbox := rest }
  | .callTurn :: rest => if s.isr = .idle then callStep { s with inbox := rest } else ownStep s
  | .env m :: rest => .next ({ s with inbox := rest }.envMove m)
  | .command p :: rest => if s.callBoundary then takeCommand p { s with inbox := rest } else ownStep s
  | .api a :: rest =>
    match a.instr.port with
    | .command => if s.callBoundary then takeApi a { s with inbox := rest } else ownStep s
    | .interrupt => if s.isr = .idle then takeApi a { s with inbox := rest } else ownStep s
  | .service w :: rest => if s.isr = .idle then takeService w { s with inbox := rest } else ownStep s

/-- Whether the lifecycle gate lets a command pass in Uninit only, in both states, or in Active only (R270). -/
def Instr.lifeFor (i : Instr) (now : Life) : Life :=
  match i with
  | .init => .uninit
  | .infoNspaces | .infoSpacewidth | .infoIrqreq => now
  | .exit | .read _ | .write _ | .blkread | .blkwrite | .serviceIrq
  | .getDebugLevel | .setDebugLevel | .getIrqEnable | .setIrqEnable | .getIrqCount | .setIrqCount
  | .getChDir _ | .setChDir _ | .getChLen _ | .getChType _ | .getTerm _ | .setTerm _ | .getEdge | .setEdge
  | .getStorage | .setStorage | .getSig | .setSig | .setSigclr | .getBufen _ | .setBufen _
  | .getRdSize | .getWrSize => .active

/-- The state in which the next step takes a word: it stands first in the line-up on its own port, the call context and the
sequencer are between two steps, the lifecycle gate lets it pass, and the interrupt entry's request line is asserted (log 1). -/
def State.placeWord (w : Word) (s : State) : State :=
  let free : State := { s with isr := .idle, blk := none, rdWait := none, stuck := false }
  match decode .command w, decode .interrupt w with
  | .instr i, _ =>
    { free with life := Instr.lifeFor i s.life, inbox := .command { s.port with cmd := w } :: s.inbox }
  | _, .instr i =>
    { free with life := Instr.lifeFor i s.life, irqEnable := true, irqPending := true, inbox := .service w :: s.inbox }
  | _, _ => { free with inbox := .command { s.port with cmd := w } :: s.inbox }

end Sys2Proof.Machine
end

