-- ==== Sys2Proof/Machine/Step.lean ====
section
/-! DEFINITION. One step of the block, and where a table row's word is put so that the next step takes it. -/

namespace Sys2Proof.Machine

/-- One step of one agent (00_scope R15). -/
def step (s : State) : Host.Outcome State Fault Refusal := inboxStep s

/-- `s` with the word presented, so that the next step takes exactly it (log 1). -/
def State.withFetchWord (s : State) (nbits w : Nat) : State := s.placeWord (BitVec.ofNat 32 (w % 2 ^ nbits))

end Sys2Proof.Machine
end

