-- ==== Sys2Proof/Machine/Instances.lean ====
section
/-! DEFINITION. Several boards: independent instances, one state each (00_scope R7, 60_exceptions R324, decision D49). -/

namespace Sys2Proof.Machine

/-- Step instance `n` of a list of instances as board `n`, so that its free values are its own (00_scope R10, log 5); the others
keep their state. An instance that does not exist has no step. -/
def stepInstance (n : Nat) (l : List State) : Host.Outcome (List State) Fault Refusal :=
  match l[n]? with
  | none => .next l
  | some s =>
    match step { s with board := n } with
    | .next t => .next (l.set n t)
    | .fault r => .fault r
    | .refused r => .refused r

end Sys2Proof.Machine
end

