-- ==== Sys2Proof/Safety.lean ====
section
/-! DEFINITION. What counts as a safe run: the marks stay clear, and the invariant that ties the state's parts together. -/

namespace Sys2Proof.Machine

/-- Neither sticky mark is set: a state with a mark is never a good final state (10_state R42, 60_exceptions R312, R313). -/
def State.unmarked (s : State) : Bool := s.faulted.isNone && s.refused.isNone

/-- The derived sizes count what they are derived from (10_state R23). -/
def State.SizesCount (s : State) : Prop :=
  s.store.readSize.toNat = (s.store.sel .input).length ∧ s.store.writeSize.toNat = (s.store.sel .output).length

/-- A block command in flight (10_state R36, 43_block_io R191, R200): its channel list is the current selection of its direction
and is not used up, the host buffer admits every byte of it, and the call context is at nothing else. -/
def State.CursorSound (s : State) : Prop :=
  ∀ cur, s.blk = some cur →
    s.life = .active ∧ cur.chans = s.store.sel cur.op.direction ∧ cur.k < cur.chans.length ∧
      hmemAdmits s.params cur.addr cur.chans.length = true ∧ s.rdWait = none ∧ s.stuck = false

/-- A delegated read in flight (43_block_io R192, 20_memory R67): the transport's answer, once given, keeps its contract. -/
def State.WaitSound (s : State) : Prop :=
  ∀ w, s.rdWait = some w →
    s.life = .active ∧ s.transport.mode ≠ .userControlled ∧
      ∀ a, w.answer = some a → a.admissible w.cap s.transport.ready = true

/-- Before INIT and after EXIT nothing runs: interrupts disabled, no target installed, sequencer idle, no command in flight
(46_host_surface R270, R276, 70_reset_and_hazards R350, R352). -/
def State.UninitQuiet (s : State) : Prop :=
  s.life = .uninit →
    s.irqEnable = false ∧ s.sigTarget = 0 ∧ s.isr = .idle ∧ s.blk = none ∧ s.rdWait = none ∧ s.stuck = false

/-- The ISR state codes 5 to 7 are never reached (10_state R35). -/
def State.IsrAssigned (s : State) : Prop := ∀ k, s.isr ≠ .unassigned k

/-- The invariant of the machine. -/
structure State.Inv (s : State) : Prop where
  sizes : s.SizesCount
  memory : Memory.wf s.hmem = true
  cursor : s.CursorSound
  wait : s.WaitSound
  quiet : s.UninitQuiet
  assigned : s.IsrAssigned

end Sys2Proof.Machine
end

