-- ==== Sys2Proof/Certificates/Slice0/Obligations.lean ====
section
/-! DEFINITION. The statements about the model, from the numbered rules of spec/. A conclusion that gives the whole next state
is a frame as well: every field it does not name keeps its value, the host buffer memory among them. -/

namespace Sys2Proof.Claims

open Sys2Proof.Machine

/-- A command that failed with the error number `e`: the response and its event, nothing else (R311). -/
def failed (e : Word) (s : State) : State :=
  { s with resp := { status := e, res := 0, res2 := 0 }, events := s.events ++ [.response e 0 0] }

/-- A command that answered `r` and did nothing else (R98). -/
def answered (r : Word) (s : State) : State :=
  { s with resp := { status := 0, res := r, res2 := 0 }, events := s.events ++ [.response 0 r 0] }

/-- A refused word: the sticky mark with the first reason, nothing else (R312, R42). -/
def refusedFor (r : RefuseReason) (s : State) : State := { s with refused := some (s.refused.getD r) }

/-- How many buffering-enabled channels have a direction, for given flags and directions (R23). -/
def countOf (bufEn : Chans Bool) (dir : Chans Direction) (d : Direction) : BitVec 3 :=
  BitVec.ofNat 3 (Channel.all.filter fun c => bufEn.get c && decide (dir.get c = d)).length

/-- `CMD = (ch << 8) | op` as a number (R103). -/
def cmdWord (ch op : Nat) : Word := BitVec.ofNat 32 (256 * ch + op)

/-- The call context is between two commands and the ISR idle, with `x` first in the line-up (R82, R83). -/
def Presented (s : State) (x : Input) (rest : List Input) : Prop :=
  s.inbox = x :: rest ∧ s.isr = .idle ∧ s.blk = none ∧ s.rdWait = none ∧ s.stuck = false

/-- The block's own agents move, with `rest` lined up after it: nothing is lined up, or their turn stands first (log 3). -/
def OwnTurn (s : State) (rest : List Input) : Prop := (s.inbox = [] ∧ rest = []) ∨ s.inbox = .tick :: rest

/-- The call context moves, with `rest` lined up after it: the ISR is idle, and either the block's own agents move with no asserted
request to serve first, or the call context's own turn stands first in the line-up (R83, decision D42, log 24). -/
def CallTurn (s : State) (rest : List Input) : Prop :=
  s.isr = .idle ∧ ((OwnTurn s rest ∧ (s.life = .active → s.request = false)) ∨ s.inbox = .callTurn :: rest)

/-- The API call `a`, taken by the free call context, runs `i` with the command port holding `p`, whose word spells `i` (R104). -/
def ApiRow (s : State) (rest : List Input) (a : ApiCall) (i : Instr) (p : CommandPort) : Prop :=
  (i.wellFormed = true → decode .command p.cmd = .instr i) ∧
    (Presented s (.api a) rest → step s = exec i { s with inbox := rest, port := p })

/-- The head `x` of the line-up has to wait in `s`: a host call while the ISR runs or a block command is in flight, an entry of the
ISR or a turn of the call context while the ISR runs (R82, R83, R220). -/
def MustWait (s : State) (x : Input) : Prop :=
  (((∃ p, x = .command p) ∨ ∃ a, x = .api a ∧ a ≠ .serviceInterrupt) ∧
    (s.isr ≠ .idle ∨ s.blk ≠ none ∨ s.rdWait ≠ none ∨ s.stuck = true)) ∨
  (((∃ w, x = .service w) ∨ x = .api .serviceInterrupt ∨ x = .callTurn) ∧ s.isr ≠ .idle)

end Sys2Proof.Claims

open Sys2Proof Sys2Proof.Machine Sys2Proof.Claims

/-! ## Encoding -/

/-- R91, R93, R94, R95, R101: decoding the word of a well-formed command on its own port gives the command back, its channel
included. -/
def Obligations.DecodeOfEncode : Prop :=
  ∀ i : Instr, i.wellFormed = true → decode i.port (encode i) = .instr i

/-- R91, R95, R101: a word that spells a command is that command's encoding, but for the channel field of a command that takes
no channel, which is ignored. -/
def Obligations.EncodeOfDecode : Prop :=
  ∀ (p : Port) (w : Word) (i : Instr), decode p w = .instr i →
    i.wellFormed = true ∧ i.port = p ∧
      encode i = if i.channel?.isSome then w else w &&& 0xFFFFFCFF

/-- Words written out from R93, R94 and the opcode table, the channel in bits 9:8. -/
def Obligations.TableWordsDecode : Prop :=
  decode .command 0x00000001 = .instr .init ∧ decode .command 0x00000102 = .instr .exit ∧
  decode .command 0x00000303 = .instr (.read 3) ∧ decode .command 0x00000204 = .instr (.write 2) ∧
  decode .command 0x00000005 = .instr .blkread ∧ decode .command 0x00000009 = .instr .infoSpacewidth ∧
  decode .interrupt 0x0000000F = .instr .serviceIrq ∧ decode .command 0x000002C3 = .instr (.setChDir 2) ∧
  decode .command 0x00000390 = .instr (.getTerm 3) ∧ decode .command 0x000001D5 = .instr (.setBufen 1) ∧
  decode .command 0x00000381 = .instr .getIrqEnable ∧ decode .command 0x000000D4 = .instr .setSigclr ∧
  decode .command 0x00000097 = .instr .getWrSize

/-! ## The step -/

/-- R90, R101: with the call context free and the ISR idle, a presented word that spells a command runs exactly that command;
the step around it takes the presentation out of the line-up and holds its operands in the port registers. -/
def Obligations.StepRunsPresentedCommand : Prop :=
  ∀ (s : State) (p : CommandPort) (rest : List Input) (i : Instr),
    Presented s (.command p) rest → decode .command p.cmd = .instr i →
      step s = exec i { s with inbox := rest, port := p }

/-- R104, row by row: an API call taken by the free call context runs the one command it expands to, with the operand registers
the row gives and `CMD` holding that command's word; `serviceInterrupt` is SERVICE_IRQ on the interrupt entry port, which may be
taken inside a block command too. That an operand register the row does not give keeps its value is the model's choice (log 23),
as is the channel field of `CMD` for a channel of 4 or more, its low two bits (log 21). -/
def Obligations.ApiCallRunsItsCommand : Prop :=
  ∀ (s : State) (rest : List Input) (ch : Nat) (v buf n : Word) (cfg : Cfg),
    ApiRow s rest (.setDirection ch v) (.setChDir ch) { s.port with cmd := cmdWord (ch % 4) 0xC3, val := v } ∧
    ApiRow s rest (.getDirection ch) (.getChDir ch) { s.port with cmd := cmdWord (ch % 4) 0x83 } ∧
    ApiRow s rest (.setTermination ch v) (.setTerm ch) { s.port with cmd := cmdWord (ch % 4) 0xD0, val := v } ∧
    ApiRow s rest (.getTermination ch) (.getTerm ch) { s.port with cmd := cmdWord (ch % 4) 0x90 } ∧
    ApiRow s rest (.setBufferingEnabled ch v) (.setBufen ch) { s.port with cmd := cmdWord (ch % 4) 0xD5, val := v } ∧
    ApiRow s rest (.getBufferingEnabled ch) (.getBufen ch) { s.port with cmd := cmdWord (ch % 4) 0x95 } ∧
    ApiRow s rest (.setTriggerEdge v) .setEdge { s.port with cmd := 0xD1, val := v } ∧
    ApiRow s rest (.setDataStorageMode v) .setStorage { s.port with cmd := 0xD2, val := v } ∧
    ApiRow s rest (.readChannel ch) (.read ch) { s.port with cmd := cmdWord (ch % 4) 0x03 } ∧
    ApiRow s rest (.writeChannel ch v) (.write ch) { s.port with cmd := cmdWord (ch % 4) 0x04, val := v } ∧
    ApiRow s rest (.blockRead buf n) .blkread { s.port with cmd := 0x05, val := n, addr := buf } ∧
    ApiRow s rest (.blockWrite buf n) .blkwrite { s.port with cmd := 0x06, val := n, addr := buf } ∧
    ApiRow s rest (.enable v) .setSig { s.port with cmd := 0xD3, val := v } ∧
    ApiRow s rest .disable .setSigclr { s.port with cmd := 0xD4, val := 0 } ∧
    ApiRow s rest .query .getSig { s.port with cmd := 0x93 } ∧
    ApiRow s rest (.initialise cfg) .init { s.port with cmd := 0x01, cfg := cfg } ∧
    ApiRow s rest .shutdown .exit { s.port with cmd := 0x02 } ∧
    (s.inbox = .api .serviceInterrupt :: rest → s.isr = .idle → step s = exec .serviceIrq { s with inbox := rest })

/-- R99: the words that spell no command, in the rule's order, for an Active instance: the three refusals change no state but
their mark, and the unsupported status codes answer UnknownStatusCode. Which reason a marked state keeps is the model's choice
(log 4). -/
def Obligations.UnlistedCommandWords : Prop :=
  ∀ (s : State) (p : CommandPort) (rest : List Input) (op : Nat),
    Presented s (.command p) rest → s.life = .active → op = (p.cmd.extractLsb' 0 8).toNat →
      (p.cmd.extractLsb' 10 22 ≠ 0 → step s = .next (refusedFor .reservedBits { s with inbox := rest, port := p })) ∧
      (p.cmd.extractLsb' 10 22 = 0 →
        (op = 0x00 ∨ op = 0x07 ∨ (0x0B ≤ op ∧ op ≤ 0x0E) ∨ (0x10 ≤ op ∧ op ≤ 0x7F) →
          step s = .next (refusedFor .reservedOpcode { s with inbox := rest, port := p })) ∧
        (op = 0x0F → step s = .next (refusedFor .serviceOnCommandPort { s with inbox := rest, port := p })) ∧
        ((0x86 ≤ op ∧ op ≤ 0x8F) ∨ (0x98 ≤ op ∧ op ≤ 0xBF) ∨ (0xC6 ≤ op ∧ op ≤ 0xCF) ∨ (0xD8 ≤ op ∧ op ≤ 0xFF) ∨
          op = 0xC4 ∨ op = 0xC5 ∨ op = 0xD6 ∨ op = 0xD7 ∨ op = 0x94 →
          step s = .next (failed 8 { s with inbox := rest, port := p })))

/-- R101, R220: on the interrupt entry port only SERVICE_IRQ is a command; it runs while the call context is inside a block
command too. Every other word is refused: in an Active instance for what is wrong with it, in an Uninit one by the lifecycle gate,
whose place before the word's own refusal is the model's reading (log 13). Which reason a marked state keeps is the model's choice
(log 4). -/
def Obligations.InterruptPortWords : Prop :=
  ∀ (s : State) (w : Word) (rest : List Input), s.inbox = .service w :: rest → s.isr = .idle →
    (w.extractLsb' 10 22 = 0 → w.extractLsb' 0 8 = 0x0F → step s = exec .serviceIrq { s with inbox := rest }) ∧
    (s.life = .active → w.extractLsb' 10 22 ≠ 0 → step s = .next (refusedFor .reservedBits { s with inbox := rest })) ∧
    (s.life = .active → w.extractLsb' 10 22 = 0 → w.extractLsb' 0 8 ≠ 0x0F →
      step s = .next (refusedFor .notAnInterruptEntry { s with inbox := rest })) ∧
    (s.life = .uninit → w.extractLsb' 10 22 ≠ 0 ∨ w.extractLsb' 0 8 ≠ 0x0F →
      step s = .next (refusedFor .notInitialized { s with inbox := rest }))

/-- R270: in Uninit every call-context command but INIT and the INFO queries is refused, and so is a presented word that spells
no command; SERVICE_IRQ is never enabled; in Active, INIT is refused. The order of the gate before the word's own refusal is the
model's reading (log 13), and which reason a marked state keeps its choice (log 4). -/
def Obligations.LifecycleGate : Prop :=
  (∀ (i : Instr) (s : State), s.life = .uninit → i.port = .command →
    i ≠ .init → i ≠ .infoNspaces → i ≠ .infoSpacewidth → i ≠ .infoIrqreq →
      exec i s = .next (refusedFor .notInitialized s)) ∧
  (∀ (s : State) (p : CommandPort) (rest : List Input), s.life = .uninit → Presented s (.command p) rest →
    (∀ i, decode .command p.cmd ≠ .instr i) →
      step s = .next (refusedFor .notInitialized { s with inbox := rest, port := p })) ∧
  (∀ s : State, s.life = .uninit → exec .serviceIrq s = .next s) ∧
  (∀ s : State, s.life = .uninit → ∃ t, exec .init s = .next t ∧ t.refused = s.refused) ∧
  (∀ s : State, s.life = .active → exec .init s = .next (refusedFor .alreadyInitialized s))

/-- R95: a channel operand of 4 or more, which no command word can spell, marks the fault ChannelOutOfRange in an Active
instance and does nothing else, whatever the command. Which reason a marked state keeps is the model's choice (log 4). -/
def Obligations.ChannelOutOfRangeFaults : Prop :=
  ∀ (i : Instr) (ch : Nat) (s : State), i.channel? = some ch → 4 ≤ ch → s.life = .active →
    exec i s = .next { s with faulted := some (s.faulted.getD .channelOutOfRange) }

/-- R82, R83, R201(d), R319: what is presented waits while it may not be taken: a host call while the ISR runs or a block
command is in flight, an entry of the ISR or a turn of the call context while the ISR runs. The agents already running move
instead, as they would with nothing presented. That a waiting input stays first in the line-up is the model's (log 3, log 14,
log 24). -/
def Obligations.PresentedCommandWaits : Prop :=
  ∀ (s t : State) (x : Input) (rest : List Input), s.inbox = x :: rest → MustWait s x →
    step { s with inbox := [] } = .next t → step s = .next { t with inbox := s.inbox }

/-! ## Configuration store -/

/-- R123, R125, R127, R296, R297: the getters of a channel answer the stored value, the width 8 and the open type code, and
change nothing else. -/
def Obligations.ChannelGettersAnswer : Prop :=
  ∀ (c : Channel) (s : State), s.life = .active →
    encode (.getChDir c.index) = cmdWord c.index 0x83 ∧ encode (.getTerm c.index) = cmdWord c.index 0x90 ∧
    encode (.getBufen c.index) = cmdWord c.index 0x95 ∧ encode (.getChLen c.index) = cmdWord c.index 0x84 ∧
    encode (.getChType c.index) = cmdWord c.index 0x85 ∧
    exec (.getChDir c.index) s = .next (answered (if s.store.dir.get c = .input then 0 else 1) s) ∧
    exec (.getTerm c.index) s = .next (answered (if s.store.term.get c = .passive then 0 else 1) s) ∧
    exec (.getBufen c.index) s = .next (answered (if s.store.bufEn.get c then 1 else 0) s) ∧
    exec (.getChLen c.index) s = .next (answered 8 s) ∧
    exec (.getChType c.index) s = .next (answered Config.chTypeCode s)

/-- R129, R131, R132, R133, R250, R290, R292, R294: the device-wide getters answer their register and change nothing else. -/
def Obligations.DeviceGettersAnswer : Prop :=
  ∀ s : State, s.life = .active →
    encode .getEdge = 0x91 ∧ encode .getStorage = 0x92 ∧ encode .getRdSize = 0x96 ∧ encode .getWrSize = 0x97 ∧
    encode .getSig = 0x93 ∧ encode .getDebugLevel = 0x80 ∧ encode .getIrqEnable = 0x81 ∧ encode .getIrqCount = 0x82 ∧
    exec .getEdge s = .next (answered (if s.store.edge = .falling then 0 else 1) s) ∧
    exec .getStorage s = .next (answered (s.store.mode.setWidth 32) s) ∧
    exec .getRdSize s = .next (answered (s.store.readSize.setWidth 32) s) ∧
    exec .getWrSize s = .next (answered (s.store.writeSize.setWidth 32) s) ∧
    exec .getSig s = .next (answered s.sigTarget s) ∧
    exec .getDebugLevel s = .next (answered s.debugLevel s) ∧
    exec .getIrqEnable s = .next (answered (if s.irqEnable then 1 else 0) s) ∧
    exec .getIrqCount s = .next (answered s.irqCount s)

/-- R280, R281, R282: the capability queries answer in both lifecycle states, and an address-space index of 1 or more is an
IllegalParameter. -/
def Obligations.InfoQueriesAnswer : Prop :=
  ∀ s : State,
    encode .infoNspaces = 0x08 ∧ exec .infoNspaces s = .next (answered 1 s) ∧
    encode .infoSpacewidth = 0x09 ∧
    (s.port.val = 0 → exec .infoSpacewidth s = .next (answered s.params.addrspaceWidth s)) ∧
    (1 ≤ s.port.val.toNat → exec .infoSpacewidth s = .next (failed 1 s)) ∧
    encode .infoIrqreq = 0x0A ∧ exec .infoIrqreq s = .next (answered 1 s)

/-- R122: SET.CH_DIR. -/
def Obligations.SetChDirWrites : Prop :=
  ∀ (c : Channel) (s : State), s.life = .active →
    encode (.setChDir c.index) = cmdWord c.index 0xC3 ∧
    (1 < s.port.val.toNat → exec (.setChDir c.index) s = .next (failed 1 s)) ∧
    (∀ d : Direction, s.port.val = (if d = .input then 0 else 1) →
      exec (.setChDir c.index) s = .next
        { s with
            latch := if d = s.store.dir.get c then s.latch else s.latch.set c none
            outReg := if d = s.store.dir.get c then s.outReg else s.outReg.set c none
            store := { s.store with
              dir := s.store.dir.set c d
              readSize := countOf s.store.bufEn (s.store.dir.set c d) .input
              writeSize := countOf s.store.bufEn (s.store.dir.set c d) .output }
            resp := { status := 0, res := 0, res2 := 0 }
            events := s.events ++ [.ctrlWrite (.dir c d), .response 0 0 0] })

/-- R124: SET.TERM, for a channel of either direction. -/
def Obligations.SetTermWrites : Prop :=
  ∀ (c : Channel) (s : State), s.life = .active →
    encode (.setTerm c.index) = cmdWord c.index 0xD0 ∧
    (1 < s.port.val.toNat → exec (.setTerm c.index) s = .next (failed 1 s)) ∧
    (∀ t : Termination, s.port.val = (if t = .passive then 0 else 1) →
      exec (.setTerm c.index) s = .next
        { s with
            store := { s.store with term := s.store.term.set c t }
            resp := { status := 0, res := 0, res2 := 0 }
            events := s.events ++ [.ctrlWrite (.term c t), .response 0 0 0] })

/-- R126: SET.BUFEN, which has no control bit. -/
def Obligations.SetBufenWrites : Prop :=
  ∀ (c : Channel) (s : State), s.life = .active →
    encode (.setBufen c.index) = cmdWord c.index 0xD5 ∧
    (1 < s.port.val.toNat → exec (.setBufen c.index) s = .next (failed 1 s)) ∧
    (∀ b : Bool, s.port.val = (if b then 1 else 0) →
      exec (.setBufen c.index) s = .next
        { s with
            store := { s.store with
              bufEn := s.store.bufEn.set c b
              readSize := countOf (s.store.bufEn.set c b) s.store.dir .input
              writeSize := countOf (s.store.bufEn.set c b) s.store.dir .output }
            resp := { status := 0, res := 0, res2 := 0 }
            events := s.events ++ [.response 0 0 0] })

/-- R128: SET.EDGE. The spurious edge R181 admits after it is a move of the environment. -/
def Obligations.SetEdgeWrites : Prop :=
  ∀ s : State, s.life = .active →
    encode .setEdge = 0xD1 ∧
    (1 < s.port.val.toNat → exec .setEdge s = .next (failed 1 s)) ∧
    (∀ e : TriggerEdge, s.port.val = (if e = .falling then 0 else 1) →
      exec .setEdge s = .next
        { s with
            store := { s.store with edge := e }
            resp := { status := 0, res := 0, res2 := 0 }
            events := s.events ++ [.ctrlWrite (.edge e), .response 0 0 0] })

/-- R130: SET.STORAGE accepts 0 to 7, mode 6 among them, and a changed mode makes every latch unknown. -/
def Obligations.SetStorageWrites : Prop :=
  ∀ s : State, s.life = .active →
    encode .setStorage = 0xD2 ∧
    (7 < s.port.val.toNat → exec .setStorage s = .next (failed 1 s)) ∧
    (∀ m : BitVec 3, s.port.val = m.setWidth 32 →
      exec .setStorage s = .next
        { s with
            latch := if m = s.store.mode then s.latch else .const none
            store := { s.store with mode := m }
            resp := { status := 0, res := 0, res2 := 0 }
            events := s.events ++ [.ctrlWrite (.mode m), .response 0 0 0] })

/-! ## Direct I/O and the module -/

/-- R150: READ checks the direction before the port, and answers the byte a port read returns, zero-extended, with the port
read's side effects. The counter of draws is the model's own (log 5). -/
def Obligations.ReadAnswersThePort : Prop :=
  ∀ (c : Channel) (s : State), s.life = .active →
    encode (.read c.index) = cmdWord c.index 0x03 ∧
    (s.store.dir.get c = .output → exec (.read c.index) s = .next (failed 2 s)) ∧
    (s.store.dir.get c = .input →
      exec (.read c.index) s = .next
        { s with
            latch := s.latchesAfterRead c
            draws := s.draws + 1
            resp := { status := 0, res := (s.portValue c).setWidth 32, res2 := 0 }
            events := s.events ++ [.portRead c (s.portValue c),
              .response 0 ((s.portValue c).setWidth 32) 0] })

/-- R151: WRITE checks the direction before the port, and writes the low eight bits of VAL. -/
def Obligations.WriteWritesThePort : Prop :=
  ∀ (c : Channel) (s : State), s.life = .active →
    encode (.write c.index) = cmdWord c.index 0x04 ∧
    (s.store.dir.get c = .input → exec (.write c.index) s = .next (failed 2 s)) ∧
    (s.store.dir.get c = .output →
      exec (.write c.index) s = .next
        { s with
            outReg := s.outReg.set c (some (s.port.val.setWidth 8))
            resp := { status := 0, res := 0, res2 := 0 }
            events := s.events ++ [.portWrite c (s.port.val.setWidth 8), .response 0 0 0] })

/-- R173, R174, R175: what a port read returns and leaves in the latches, mode by mode. A value read from an unknown latch, and
every value read in mode 6, is a free value and not stated. -/
def Obligations.PortReadFollowsTheModeTable : Prop :=
  ∀ (c : Channel) (s : State),
    (s.store.mode = 0 ∨ (s.store.mode = 2 ∧ c ≠ .ch3) ∨ (s.store.mode = 3 ∧ (c = .ch0 ∨ c = .ch1)) ∨
        (s.store.mode = 4 ∧ c = .ch0) →
      s.portValue c = s.pin c ∧ s.latchesAfterRead c = s.latch.set c (some (s.pin c))) ∧
    (s.store.mode = 1 ∧ c = .ch0 →
      s.portValue c = s.pin .ch0 ∧ ∀ k, (s.latchesAfterRead c).get k = some (s.pin k)) ∧
    ((s.store.mode = 1 ∧ c ≠ .ch0) ∨ (s.store.mode = 2 ∧ c = .ch3) ∨ (s.store.mode = 3 ∧ (c = .ch2 ∨ c = .ch3)) ∨
        (s.store.mode = 4 ∧ c ≠ .ch0) ∨ s.store.mode = 5 ∨ (s.store.mode = 7 ∧ s.params.mode7Read = .frozen) →
      s.latchesAfterRead c = s.latch ∧ ∀ b, s.latch.get c = some b → s.portValue c = b) ∧
    (s.store.mode = 7 ∧ s.params.mode7Read = .live → s.portValue c = s.pin c ∧ s.latchesAfterRead c = s.latch) ∧
    (s.store.mode = 6 → s.latchesAfterRead c = s.latch)

/-- R171, R87, R103: what the environment's moves write, each of them nothing else. `ENV.PINS` fixes the pins of one channel;
the pins of an Output channel carry its output register, those of an Input channel what the environment has fixed. The
environment fixes its answer to the identification check, the two allocations, the creation of a target and the slot question
(log 6). The caller stores into a byte of its own buffer that exists, and into no other (log 19). -/
def Obligations.EnvironmentMovesWrite : Prop :=
  (∀ (c : Channel) (s : State) (b : Byte),
    (s.store.dir.get c = .output → s.outReg.get c = some b → s.pin c = b) ∧
    (s.store.dir.get c = .input → s.env.pins.get c = some b → s.pin c = b)) ∧
  (∀ (s : State) (rest : List Input) (m : EnvMove), s.inbox = .env m :: rest →
    (∀ c b, m = .pins c b →
      step s = .next { s with env := { s.env with pins := s.env.pins.set c b }, inbox := rest }) ∧
    (∀ b, m = .idOk b → step s = .next { s with env := { s.env with idOk := b }, inbox := rest }) ∧
    (∀ b, m = .allocOk b → step s = .next { s with env := { s.env with allocOk := b }, inbox := rest }) ∧
    (∀ b, m = .transportOk b → step s = .next { s with env := { s.env with transportOk := b }, inbox := rest }) ∧
    (∀ b, m = .sigOk b → step s = .next { s with env := { s.env with sigOk := b }, inbox := rest }) ∧
    (∀ b, m = .slotFree b → step s = .next { s with env := { s.env with slotFree := b }, inbox := rest }) ∧
    (∀ a v, m = .hostStore a v →
      (hmemExists s.params a.toNat = false → step s = .next { s with inbox := rest }) ∧
      (hmemExists s.params a.toNat = true → Memory.wf s.hmem = true →
        ∃ h : Memory, memByte h a.toNat = v ∧ (∀ x, x ≠ a.toNat → memByte h x = memByte s.hmem x) ∧
          step s = .next { s with hmem := h, inbox := rest })))

/-- R177: an edge event samples the pins of the Edge-class channels together, makes every latch unknown in mode 6, leaves the
other latches, and sets the pending condition where interrupts are enabled; while they are disabled a pending condition stays and
whether a new one arises is a free bit. A transition of the trigger line is an edge event exactly when it has the selected
polarity. The counter of draws is the model's own (log 5). -/
def Obligations.EdgeEventLatchesAndPends : Prop :=
  ∀ (s : State) (rest : List Input) (m : EnvMove), s.inbox = .env m :: rest →
    (m = .edge ∨ m = .transition s.store.edge →
      ∃ (l : Chans (Option Byte)) (p : Bool),
        step s = .next { s with latch := l, irqPending := p, draws := s.draws + 1, inbox := rest } ∧
        (∀ c : Channel,
          s.store.mode = 5 ∨ (s.store.mode = 4 ∧ c ≠ .ch0) ∨ (s.store.mode = 3 ∧ (c = .ch2 ∨ c = .ch3)) ∨
            (s.store.mode = 2 ∧ c = .ch3) → l.get c = some (s.pin c)) ∧
        (s.store.mode = 6 → l = .const none) ∧
        (∀ c : Channel,
          s.store.mode = 0 ∨ s.store.mode = 1 ∨ s.store.mode = 7 ∨ (s.store.mode = 4 ∧ c = .ch0) ∨
            (s.store.mode = 3 ∧ (c = .ch0 ∨ c = .ch1)) ∨ (s.store.mode = 2 ∧ c ≠ .ch3) → l.get c = s.latch.get c) ∧
        (s.irqEnable = true → p = true) ∧ (s.irqPending = true → p = true)) ∧
    (∀ q : TriggerEdge, m = .transition q → q ≠ s.store.edge → step s = .next { s with inbox := rest })

/-! ## Block I/O -/

/-- R190, R191: BLKREAD with transport mode UserControlled, its check step: the two errors in order, the cursor, and no step
left for the call context where the host buffer does not exist (log 10). That the mode's query is an event only of a check step
that goes on is the model's reading (log 15). -/
def Obligations.BlkreadDirectChecks : Prop :=
  ∀ s : State, s.life = .active → s.transport.mode = .userControlled →
    (s.store.readSize = 0 → exec .blkread s = .next (failed 3 s)) ∧
    (s.port.val.toNat < s.store.readSize.toNat → exec .blkread s = .next (failed 4 s)) ∧
    (s.store.readSize ≠ 0 → s.store.readSize.toNat ≤ s.port.val.toNat →
      ((∀ k < s.store.readSize.toNat, hmemExists s.params (s.port.addr.toNat + k) = true) →
        exec .blkread s = .next
          { s with
              blk := some { op := .blkread, chans := s.store.sel .input, k := 0, addr := s.port.addr }
              events := s.events ++ [.bufMode .userControlled] }) ∧
      ((∃ k < s.store.readSize.toNat, hmemExists s.params (s.port.addr.toNat + k) = false) →
        exec .blkread s = .next { s with stuck := true }))

/-- R190, R192: BLKREAD with any other transport mode waits on the transport, with no check of channels or sizes. The mode's
query is its event (R66). -/
def Obligations.BlkreadDelegates : Prop :=
  ∀ s : State, s.life = .active → s.transport.mode ≠ .userControlled →
    exec .blkread s = .next
      { s with
          rdWait := some { cap := s.port.val, addr := s.port.addr, answer := none }
          events := s.events ++ [.bufMode s.transport.mode] }

/-- R200: BLKWRITE's check step, in every transport mode (log 10 for the missing host buffer). -/
def Obligations.BlkwriteChecks : Prop :=
  ∀ s : State, s.life = .active →
    (s.store.writeSize = 0 → exec .blkwrite s = .next (failed 3 s)) ∧
    (s.port.val.toNat < s.store.writeSize.toNat → exec .blkwrite s = .next (failed 4 s)) ∧
    (s.store.writeSize ≠ 0 → s.store.writeSize.toNat ≤ s.port.val.toNat →
      ((∀ k < s.store.writeSize.toNat, hmemExists s.params (s.port.addr.toNat + k) = true) →
        exec .blkwrite s = .next
          { s with blk := some { op := .blkwrite, chans := s.store.sel .output, k := 0, addr := s.port.addr } }) ∧
      ((∃ k < s.store.writeSize.toNat, hmemExists s.params (s.port.addr.toNat + k) = false) →
        exec .blkwrite s = .next { s with stuck := true }))

/-- R191, R63: one transfer step of BLKREAD, on any turn of the call context (log 3, log 24), moves the port
value of the cursor's channel to the cursor's host byte and moves the cursor on, or ends the command with RES = n after the last
channel. No other host byte changes. The counter of draws is the model's own (log 5). -/
def Obligations.BlkreadTransfersOneByte : Prop :=
  ∀ (s : State) (rest : List Input) (cur : BlkCursor) (c : Channel) (a : Nat),
    CallTurn s rest → s.stuck = false → Memory.wf s.hmem = true →
    s.blk = some cur → cur.op = .blkread → cur.chans[cur.k]? = some c →
    a = cur.addr.toNat + cur.k → hmemExists s.params a = true →
      ∃ m : Memory, memByte m a = s.portValue c ∧ (∀ b, b ≠ a → memByte m b = memByte s.hmem b) ∧
        (cur.k + 1 < cur.chans.length →
          step s = .next
            { s with
                latch := s.latchesAfterRead c, draws := s.draws + 1, hmem := m, inbox := rest
                blk := some { cur with k := cur.k + 1 }
                events := s.events ++ [.portRead c (s.portValue c), .memWrite a (s.portValue c)] }) ∧
        (cur.k + 1 = cur.chans.length →
          step s = .next
            { s with
                latch := s.latchesAfterRead c, draws := s.draws + 1, hmem := m, inbox := rest, blk := none
                resp := { status := 0, res := BitVec.ofNat 32 cur.chans.length, res2 := 0 }
                events := s.events ++ [.portRead c (s.portValue c), .memWrite a (s.portValue c),
                  .response 0 (BitVec.ofNat 32 cur.chans.length) 0] })

/-- R200, R63: one transfer step of BLKWRITE, on any turn of the call context (log 3, log 24), moves the
cursor's host byte to the output register of the cursor's channel, and no host byte changes. -/
def Obligations.BlkwriteTransfersOneByte : Prop :=
  ∀ (s : State) (rest : List Input) (cur : BlkCursor) (c : Channel) (a : Nat),
    CallTurn s rest → s.stuck = false →
    s.blk = some cur → cur.op = .blkwrite → cur.chans[cur.k]? = some c →
    a = cur.addr.toNat + cur.k → hmemExists s.params a = true →
      (cur.k + 1 < cur.chans.length →
        step s = .next
          { s with
              outReg := s.outReg.set c (some (memByte s.hmem a)), inbox := rest
              blk := some { cur with k := cur.k + 1 }
              events := s.events ++ [.memRead a (memByte s.hmem a), .portWrite c (memByte s.hmem a)] }) ∧
      (cur.k + 1 = cur.chans.length →
        step s = .next
          { s with
              outReg := s.outReg.set c (some (memByte s.hmem a)), inbox := rest, blk := none
              resp := { status := 0, res := BitVec.ofNat 32 cur.chans.length, res2 := 0 }
              events := s.events ++ [.memRead a (memByte s.hmem a), .portWrite c (memByte s.hmem a),
                .response 0 (BitVec.ofNat 32 cur.chans.length) 0] })

/-- R66, R67: the transport's answer reaches the waiting read if it keeps to the contract: at most `cap` bytes, each harvested
and marked ready before, or an error code; any other answer is no move of the transport (log 11). -/
def Obligations.TransportAnswersWithinItsContract : Prop :=
  ∀ (s : State) (rest : List Input) (cap addr : Word) (r : BufAnswer),
    s.inbox = .env (.bufAnswer r) :: rest → s.rdWait = some { cap := cap, addr := addr, answer := none } →
      ((∀ l, r = .bytes l → l.length ≤ cap.toNat ∧ ∀ b ∈ l, b ∈ s.transport.ready) →
        step s = .next
          { s with
              rdWait := some { cap := cap, addr := addr, answer := some r }
              events := s.events ++ [.bufRead cap r]
              inbox := rest }) ∧
      (∀ l, r = .bytes l → cap.toNat < l.length ∨ (∃ b ∈ l, b ∉ s.transport.ready) →
        step s = .next { s with inbox := rest })

/-- R192: on any turn of the call context (log 3, log 24) the answered delegated read ends: an error with the transport's code
in RES, or the bytes in the host buffer with their number in RES and the transport mode in RES2; no other host byte changes. -/
def Obligations.DelegatedReadCompletes : Prop :=
  ∀ (s : State) (rest : List Input) (cap addr : Word) (r : BufAnswer),
    CallTurn s rest → s.stuck = false → s.blk = none → Memory.wf s.hmem = true →
    s.rdWait = some { cap := cap, addr := addr, answer := some r } →
      (∀ code, r = .err code →
        step s = .next
          { s with
              rdWait := none, inbox := rest
              resp := { status := 11, res := code, res2 := 0 }
              events := s.events ++ [.response 11 code 0] }) ∧
      (∀ l, r = .bytes l → (∀ k < l.length, hmemExists s.params (addr.toNat + k) = true) →
        ∃ (m : Memory) (evs : List Event),
          (∀ k v, l[k]? = some v → memByte m (addr.toNat + k) = v ∧ evs[k]? = some (.memWrite (addr.toNat + k) v)) ∧
          (∀ b, b < addr.toNat ∨ addr.toNat + l.length ≤ b → memByte m b = memByte s.hmem b) ∧
          evs.length = l.length ∧
          step s = .next
            { s with
                rdWait := none, hmem := m, inbox := rest
                resp := { status := 0, res := BitVec.ofNat 32 l.length, res2 := s.transport.mode.code }
                events := s.events ++ evs ++ [.response 0 (BitVec.ofNat 32 l.length) s.transport.mode.code] }) ∧
      (∀ l, r = .bytes l → (∃ k < l.length, hmemExists s.params (addr.toNat + k) = false) →
        step s = .next { s with stuck := true, inbox := rest })

/-- R200, R201, R63: a BLKWRITE left to itself writes host byte `k` to the `k`-th selected channel, in as many steps as there are
channels, answers their number, and leaves every other output register, the store and the host buffer as they were. -/
def Obligations.BlkwriteRunWritesEverySelectedChannel : Prop :=
  ∀ (s : State) (addr : Word), s.Inv → s.inbox = [] → s.isr = .idle → s.request = false →
    s.blk = some { op := .blkwrite, chans := s.store.sel .output, k := 0, addr := addr } →
      ∃ t, Host.Core.run core (s.store.sel .output).length s = .next t ∧
        t.blk = none ∧ t.resp = { status := 0, res := BitVec.ofNat 32 (s.store.sel .output).length, res2 := 0 } ∧
        (∀ k c, (s.store.sel .output)[k]? = some c → t.outReg.get c = some (memByte s.hmem (addr.toNat + k))) ∧
        (∀ c, c ∉ s.store.sel .output → t.outReg.get c = s.outReg.get c) ∧
        t.store = s.store ∧ t.hmem = s.hmem ∧ t.latch = s.latch

/-- R191, R175, R63: in data storage mode 0 a BLKREAD left to itself puts the pins of the `k`-th selected channel into host byte
`k`, in as many steps as there are channels, answers their number, and leaves every other host byte, the store and the output
registers as they were. -/
def Obligations.BlkreadRunReadsEverySelectedChannel : Prop :=
  ∀ (s : State) (addr : Word), s.Inv → s.inbox = [] → s.isr = .idle → s.request = false → s.store.mode = 0 →
    s.blk = some { op := .blkread, chans := s.store.sel .input, k := 0, addr := addr } →
      ∃ t, Host.Core.run core (s.store.sel .input).length s = .next t ∧
        t.blk = none ∧ t.resp = { status := 0, res := BitVec.ofNat 32 (s.store.sel .input).length, res2 := 0 } ∧
        (∀ k c b, (s.store.sel .input)[k]? = some c → s.env.pins.get c = some b →
          memByte t.hmem (addr.toNat + k) = b ∧ t.latch.get c = some b) ∧
        (∀ a, a < addr.toNat ∨ addr.toNat + (s.store.sel .input).length ≤ a → memByte t.hmem a = memByte s.hmem a) ∧
        t.store = s.store ∧ t.outReg = s.outReg

/-! ## The ISR sequencer -/

/-- R220, R317: SERVICE_IRQ enters exactly where it is enabled, and entry changes nothing but the sequencer; where it is not
enabled there is no entry (log 14). -/
def Obligations.ServiceEntersWhereEnabled : Prop :=
  ∀ s : State,
    (s.life = .active → s.isr = .idle →
      (s.irqPending = true ∧ s.irqEnable = true) ∨ s.params.spuriousService = true →
        exec .serviceIrq s = .next { s with isr := .ack }) ∧
    (s.life = .uninit ∨ s.isr ≠ .idle ∨
        ((s.irqPending = false ∨ s.irqEnable = false) ∧ s.params.spuriousService = false) →
      exec .serviceIrq s = .next s)

/-- R315, R316, decision D42: with nothing else lined up, an asserted request of an Active instance enters at the next step
boundary, inside a block command as well. That the entry comes at once is the model's scheduling (log 3, log 24). -/
def Obligations.AssertedRequestIsServed : Prop :=
  ∀ (s : State) (rest : List Input), OwnTurn s rest →
    s.life = .active → s.isr = .idle → s.irqPending = true → s.irqEnable = true →
      step s = .next { s with isr := .ack, inbox := rest }

/-- R221: the Ack step, on a turn of the block's own agents (log 3). -/
def Obligations.AckStepClearsPending : Prop :=
  ∀ (s : State) (rest : List Input), OwnTurn s rest → s.isr = .ack →
    step s = .next { s with irqPending := false, isr := .harvest .ch0, events := s.events ++ [.ackIrq], inbox := rest }

/-- R222, R66: the Harvest step of channel `c`, on a turn of the block's own agents (log 3): skipped, truncated by a missing
slot, or harvested, the slot acquired before the port is read; where the environment has not fixed whether a slot is free, one
of the last two. The slot's name and the counter of draws are the model's own (log 16, log 5). -/
def Obligations.HarvestStep : Prop :=
  ∀ (s : State) (rest : List Input) (c : Channel) (next : IsrState), OwnTurn s rest → s.isr = .harvest c →
    next = (match c with
      | .ch0 => .harvest .ch1
      | .ch1 => .harvest .ch2
      | .ch2 => .harvest .ch3
      | .ch3 => .notify) →
      (s.store.bufEn.get c = false ∨ s.store.dir.get c = .output → step s = .next { s with isr := next, inbox := rest }) ∧
      (s.store.bufEn.get c = true → s.store.dir.get c = .input → s.env.slotFree = some false →
        step s = .next
          { s with
              isr := .notify, draws := s.draws + 1, inbox := rest
              events := s.events ++ [.bufAcquire none, .overrun c] }) ∧
      (s.store.bufEn.get c = true → s.store.dir.get c = .input → s.env.slotFree = some true →
        step s = .next
          { s with
              isr := next, inbox := rest
              latch := s.latchesAfterRead c
              draws := s.draws + 1
              transport := { s.transport with
                ready := s.transport.ready ++ [s.portValue c], acquired := s.transport.acquired + 1 }
              events := s.events ++ [.bufAcquire (some s.transport.acquired), .portRead c (s.portValue c),
                .bufPut s.transport.acquired (s.portValue c), .bufReady s.transport.acquired] }) ∧
      (s.store.bufEn.get c = true → s.store.dir.get c = .input →
        ∃ t, step s = .next t ∧
          (t.isr = .notify ∧ t.events = s.events ++ [.bufAcquire none, .overrun c] ∨
            t.isr = next ∧ t.transport.ready = s.transport.ready ++ [s.portValue c]))

/-- R223: the Notify step, on a turn of the block's own agents (log 3), delivers an installed target, once, and goes on. -/
def Obligations.NotifyStep : Prop :=
  ∀ (s : State) (rest : List Input), OwnTurn s rest → s.isr = .notify →
    (s.sigTarget = 0 → step s = .next { s with isr := .count, inbox := rest }) ∧
    (s.sigTarget ≠ 0 → step s = .next { s with isr := .count, events := s.events ++ [.notify s.sigTarget], inbox := rest })

/-- R224, R318: the Count step, on a turn of the block's own agents (log 3), increments modulo 2^32 and returns to Idle. -/
def Obligations.CountStep : Prop :=
  ∀ (s : State) (rest : List Input), OwnTurn s rest → s.isr = .count →
    step s = .next { s with irqCount := BitVec.ofNat 32 ((s.irqCount.toNat + 1) % 2 ^ 32), isr := .idle, inbox := rest }

/-- R225, R224, R227, R365: left to itself, a service that has entered reaches Idle within seven steps, clears the pending
condition, counts exactly once, puts at most one byte for each eligible channel into the transport, and leaves configuration,
response and block command as they were. -/
def Obligations.ServiceReachesIdle : Prop :=
  ∀ s : State, s.inbox = [] → s.isr = .ack →
    ∃ (n : Nat) (t : State) (l : List Byte), n ≤ 7 ∧ Host.Core.run core n s = .next t ∧
      t.isr = .idle ∧ t.irqPending = false ∧ t.irqCount = s.irqCount + 1 ∧
      t.transport.ready = s.transport.ready ++ l ∧ l.length ≤ (s.store.sel .input).length ∧
      t.store = s.store ∧ t.irqEnable = s.irqEnable ∧ t.sigTarget = s.sigTarget ∧ t.debugLevel = s.debugLevel ∧
      t.resp = s.resp ∧ t.blk = s.blk ∧ t.rdWait = s.rdWait ∧ t.hmem = s.hmem ∧ t.outReg = s.outReg ∧ t.life = s.life

/-- R45, R83, R226, R227: while the ISR runs, no step of any agent writes configuration, the call context's registers or the
output registers, whatever is lined up: the call context takes no step. -/
def Obligations.IsrWritesNoConfiguration : Prop :=
  ∀ s t : State, s.isr ≠ .idle → step s = .next t →
    t.store = s.store ∧ t.irqEnable = s.irqEnable ∧ t.sigTarget = s.sigTarget ∧ t.debugLevel = s.debugLevel ∧
    t.resp = s.resp ∧ t.blk = s.blk ∧ t.stuck = s.stuck ∧ t.outReg = s.outReg ∧ t.life = s.life ∧ t.port = s.port ∧
    t.refused = s.refused ∧ t.params = s.params

/-- R317, R319: services do not nest: only a step from Idle enters the ISR. -/
def Obligations.ServicesDoNotNest : Prop :=
  ∀ s t : State, step s = .next t → t.isr = .ack → s.isr ≠ .idle →
    ∃ m rest, s.inbox = .env m :: rest ∧ s.isr = .ack

/-- R87, R178, R315, R316: in an Active instance the pending condition, once set, is cleared by nothing but the Ack step of the
ISR: no command, no disabling, no environment move loses it. -/
def Obligations.OnlyAckClearsPending : Prop :=
  ∀ s t : State, s.life = .active → s.irqPending = true → s.isr ≠ .ack → step s = .next t → t.irqPending = true

/-- R33, R224, R271, R295, R322: a step leaves the interrupt counter, or counts one service, or is SET.IRQ_COUNT writing its
value, or INIT writing 0: nothing else writes it. That EXIT keeps it is the model's choice (log 31). -/
def Obligations.CounterMovesByServicesAndCommands : Prop :=
  ∀ s t : State, step s = .next t →
    t.irqCount = s.irqCount ∨ (s.isr = .count ∧ t.irqCount = s.irqCount + 1) ∨
      (s.isr = .idle ∧
        ((∃ p rest, s.inbox = .command p :: rest ∧
            ((decode .command p.cmd = .instr .setIrqCount ∧ t.irqCount = p.val) ∨
              (decode .command p.cmd = .instr .init ∧ t.irqCount = 0))) ∨
          ∃ cfg rest, s.inbox = .api (.initialise cfg) :: rest ∧ t.irqCount = 0))

/-! ## Notification control -/

/-- R251: SET.SIG, its three errors in the rule's order; the outcome of the creation is the environment's, and where that is not
fixed it is one of the two. The creation's event and the counter of draws are the model's reading (log 15, log 22). -/
def Obligations.SetSigInstalls : Prop :=
  ∀ s : State, s.life = .active →
    encode .setSig = 0xD3 ∧
    (s.port.val = 0 → exec .setSig s = .next (failed 7 s)) ∧
    (s.port.val ≠ 0 → s.sigTarget ≠ 0 → exec .setSig s = .next (failed 5 s)) ∧
    (s.port.val ≠ 0 → s.sigTarget = 0 → s.env.sigOk = some false →
      exec .setSig s = .next (failed 10 { s with draws := s.draws + 1 })) ∧
    (s.port.val ≠ 0 → s.sigTarget = 0 → s.env.sigOk = some true →
      exec .setSig s = .next
        { s with
            sigTarget := s.port.val
            draws := s.draws + 1
            resp := { status := 0, res := 0, res2 := 0 }
            events := s.events ++ [.sigCreate s.port.val, .response 0 0 0] }) ∧
    (s.port.val ≠ 0 → s.sigTarget = 0 →
      ∃ t, exec .setSig s = .next t ∧ (t.resp.status = 0 ∧ t.sigTarget = s.port.val ∨ t.resp.status = 10 ∧ t.sigTarget = 0))

/-- R252: SET.SIGCLR. The removal's event is the model's reading of R66 (log 15). -/
def Obligations.SetSigclrRemoves : Prop :=
  ∀ s : State, s.life = .active →
    encode .setSigclr = 0xD4 ∧
    (s.sigTarget = 0 → exec .setSigclr s = .next (failed 6 s)) ∧
    (s.sigTarget ≠ 0 →
      exec .setSigclr s = .next
        { s with
            sigTarget := 0
            resp := { status := 0, res := 0, res2 := 0 }
            events := s.events ++ [.sigRemove s.sigTarget, .response 0 0 0] })

/-! ## Host surface -/

/-- R97, R271, R351: INIT with a valid record, any of whose keys may be absent: the identification check passes or is off, the
allocations succeed, and every field has the value R351 lists; `irqPending` is a free bit. The transport's creation as an
event and the counter of draws are the model's (log 15, log 5). -/
def Obligations.InitProgramsTheBlock : Prop :=
  ∀ (s : State) (ic : Option Bool) (e : Option TriggerEdge) (m : Option (BitVec 3)) (d : Chans (Option Direction))
    (t : Chans (Option Termination)) (b : Chans (Option Bool)) (tm : Option TransportMode) (ts tt th : Option Word),
    s.life = .uninit →
    s.port.cfg =
      { idCheck := ic.map fun x => if x then 1 else 0
        edge := e.map fun x => if x = .falling then 0 else 1
        mode := m.map fun x => x.setWidth 32
        dir := .ofFn fun c => (d.get c).map fun x => if x = .input then 0 else 1
        term := .ofFn fun c => (t.get c).map fun x => if x = .passive then 0 else 1
        bufEn := .ofFn fun c => (b.get c).map fun x => if x then 1 else 0
        tsize := ts, tmode := tm.map TransportMode.code, ttimeout := tt, thigh := th } →
    (ic = some false ∨ s.env.idOk = some true) → s.env.allocOk = some true → s.env.transportOk = some true →
      ∃ (dir : Chans Direction) (term : Chans Termination) (bufEn : Chans Bool) (pending : Bool) (ctrl : List Event),
        (∀ c, dir.get c = (d.get c).getD .input) ∧ (∀ c, term.get c = (t.get c).getD .passive) ∧
        (∀ c, bufEn.get c = (b.get c).getD true) ∧
        ctrl = [.ctrlWrite (.dir .ch0 dir.c0), .ctrlWrite (.term .ch0 term.c0),
          .ctrlWrite (.dir .ch1 dir.c1), .ctrlWrite (.term .ch1 term.c1),
          .ctrlWrite (.dir .ch2 dir.c2), .ctrlWrite (.term .ch2 term.c2),
          .ctrlWrite (.dir .ch3 dir.c3), .ctrlWrite (.term .ch3 term.c3),
          .ctrlWrite (.edge (e.getD .falling)), .ctrlWrite (.mode (m.getD 0)), .ctrlWrite (.irqen false)] ∧
        exec .init s = .next
          { s with
              life := .active
              store :=
                { dir := dir, term := term, bufEn := bufEn, edge := e.getD .falling, mode := m.getD 0
                  idCheck := ic.getD true
                  readSize := countOf bufEn dir .input, writeSize := countOf bufEn dir .output }
              irqEnable := false, irqPending := pending, irqCount := 0, sigTarget := 0, debugLevel := 0
              isr := .idle, blk := none, rdWait := none, stuck := false
              latch := .const none, outReg := .const none
              transport :=
                { mode := tm.getD .userControlled, size := ts.getD Config.bufDefaultSize, timeout := tt.getD 0
                  high := th.getD 0, ready := [], acquired := 0 }
              resp := { status := 0, res := 0, res2 := 0 }
              draws := s.draws + 1
              events := s.events ++
                .bufCreate (tm.getD .userControlled) (ts.getD Config.bufDefaultSize) (tt.getD 0) (th.getD 0) ::
                  (ctrl ++ [.response 0 0 0]) }

/-- R272: INIT with a present field out of range answers IllegalParameter before anything else is asked or done. -/
def Obligations.InitRejectsOutOfRange : Prop :=
  ∀ (s : State) (w : Word), s.life = .uninit →
    (1 < w.toNat ∧ (s.port.cfg.idCheck = some w ∨ s.port.cfg.edge = some w ∨
        ∃ c : Channel, s.port.cfg.dir.get c = some w ∨ s.port.cfg.term.get c = some w ∨ s.port.cfg.bufEn.get c = some w)) ∨
      (7 < w.toNat ∧ s.port.cfg.mode = some w) ∨ (3 < w.toNat ∧ s.port.cfg.tmode = some w) →
      exec .init s = .next (failed 1 s)

/-- R271, R273: INIT with a valid record reports the first check that fails, the identification (where it is on) before the
allocations, and the block stays Uninit with nothing programmed. The counter of draws is the model's own (log 22). -/
def Obligations.InitErrorsInOrder : Prop :=
  ∀ (s : State) (v : InitValues), s.life = .uninit → s.port.cfg.resolve = some v →
    (v.idCheck = true → s.env.idOk = some false → exec .init s = .next (failed 9 { s with draws := s.draws + 1 })) ∧
    (v.idCheck = false ∨ s.env.idOk = some true →
      s.env.allocOk = some false ∨ (s.env.allocOk = some true ∧ s.env.transportOk = some false) →
        exec .init s = .next (failed 10 { s with draws := s.draws + 1 }))

/-- R276, R352: EXIT drives the module to the safe state, removes notification and transport, keeps edge, mode, pending
condition and the latches and output registers of Input channels; those of the channels it turns to Input become unknown, as R276
says, or keep their values, as R352 says: the spec states both, and which one `params.exitRegisters` takes is the model's choice
(log 30). That the sizes are recomputed and the transport's history dropped is the model's reading (log 12, log 29), as are the
removals' events (log 15). So is that the four values R352 gives no value, `idCheck`, `bufEn`, `irqCount` and `debugLevel`, stay
as they were (log 31). -/
def Obligations.ExitDrivesTheSafeState : Prop :=
  ∀ s : State, s.life = .active →
    ∃ (latch outReg : Chans (Option Byte)) (gone : List Event),
      (∀ c, latch.get c =
        if s.store.dir.get c = .input ∨ s.params.exitRegisters = .kept then s.latch.get c else none) ∧
      (∀ c, outReg.get c =
        if s.store.dir.get c = .input ∨ s.params.exitRegisters = .kept then s.outReg.get c else none) ∧
      gone = (if s.sigTarget = 0 then [] else [.sigRemove s.sigTarget]) ∧
      exec .exit s = .next
        { s with
            life := .uninit
            store := { s.store with
              dir := .const .input, term := .const .passive
              readSize := countOf s.store.bufEn (.const .input) .input, writeSize := 0 }
            latch := latch, outReg := outReg, irqEnable := false, sigTarget := 0
            transport := { s.transport with ready := [], acquired := 0 }
            resp := { status := 0, res := 0, res2 := 0 }
            events := s.events ++
              ([.ctrlWrite (.dir .ch0 .input), .ctrlWrite (.term .ch0 .passive),
                .ctrlWrite (.dir .ch1 .input), .ctrlWrite (.term .ch1 .passive),
                .ctrlWrite (.dir .ch2 .input), .ctrlWrite (.term .ch2 .passive),
                .ctrlWrite (.dir .ch3 .input), .ctrlWrite (.term .ch3 .passive),
                .ctrlWrite (.irqen false)] ++ gone ++ [.bufRemove, .response 0 0 0]) }

/-- R291, R295: the debug level and the counter take any value. -/
def Obligations.AnyValueSettersWrite : Prop :=
  ∀ s : State, s.life = .active →
    encode .setDebugLevel = 0xC0 ∧ encode .setIrqCount = 0xC2 ∧
    exec .setDebugLevel s = .next (answered 0 { s with debugLevel := s.port.val }) ∧
    exec .setIrqCount s = .next (answered 0 { s with irqCount := s.port.val })

/-- R293, R315: SET.IRQ_ENABLE writes the enable and its control bit and leaves the pending condition. -/
def Obligations.SetIrqEnableWrites : Prop :=
  ∀ s : State, s.life = .active →
    encode .setIrqEnable = 0xC1 ∧
    (1 < s.port.val.toNat → exec .setIrqEnable s = .next (failed 1 s)) ∧
    (∀ b : Bool, s.port.val = (if b then 1 else 0) →
      exec .setIrqEnable s = .next
        { s with
            irqEnable := b
            resp := { status := 0, res := 0, res2 := 0 }
            events := s.events ++ [.ctrlWrite (.irqen b), .response 0 0 0] })

/-! ## Whole-machine rules -/

/-- R350: before the first INIT the instance is Uninit, its latches and output registers unknown, its marks clear, and it waits
for a command. The other fields' values are the model's (log 2) and not stated. -/
def Obligations.ResetWaitsForACommand : Prop :=
  State.reset.life = .uninit ∧ State.reset.latch = .const none ∧ State.reset.outReg = .const none ∧
    State.reset.unmarked = true ∧ step State.reset = .next State.reset

/-- The invariant of Safety.lean holds before the first INIT. -/
def Obligations.ResetMeetsTheInvariant : Prop := State.reset.Inv

/-- R23, R35, R36, R62, R67, R191, R270: every step of every agent keeps the invariant: the sizes count what they are derived from,
the host memory keeps its form, a block command in flight holds the current selection, a waiting read keeps its contract, an Uninit
instance is quiet, no unassigned sequencer code is reached. -/
def Obligations.StepKeepsTheInvariant : Prop :=
  ∀ s t : State, s.Inv → step s = .next t → t.Inv

/-- R62, R191, R200: from a state with the invariant the machine always has a next state: no block transfer reaches a host byte
that does not exist. -/
def Obligations.InvariantStatesStep : Prop :=
  ∀ s : State, s.Inv → ∃ t, step s = .next t

/-- R44: the sizes never exceed the channels together. -/
def Obligations.SizesWithinFour : Prop :=
  ∀ s : State, s.SizesCount → s.store.readSize.toNat + s.store.writeSize.toNat ≤ 4

/-- R152, R201(b): the direction multiplexer: no step reads an Output channel's port or writes an Input channel's port, whatever
command or service makes it. -/
def Obligations.MultiplexerRespectsDirection : Prop :=
  ∀ s t : State, s.Inv → step s = .next t →
    ∃ l, t.events = s.events ++ l ∧
      ∀ c v, (.portRead c v ∈ l → s.store.dir.get c = .input) ∧ (.portWrite c v ∈ l → s.store.dir.get c = .output)

/-- R311: a command whose own step answers an error code changes nothing but the response registers and logs nothing but the
response: no module, memory, transport or notification access. The counter of draws is the model's own (log 22). -/
def Obligations.ErrorsChangeNothing : Prop :=
  ∀ (i : Instr) (s t : State) (l : List Event) (e r r2 : Word),
    exec i s = .next t → t.events = s.events ++ l → .response e r r2 ∈ l → e ≠ 0 →
      r = 0 ∧ r2 = 0 ∧ t = failed e { s with draws := t.draws }

/-- R42, R312, R313: no step clears a sticky mark or replaces its reason (which reason is kept is the model's choice, log 4). -/
def Obligations.MarksAreSticky : Prop :=
  ∀ s t : State, step s = .next t →
    (∀ r, s.refused = some r → t.refused = some r) ∧ (∀ r, s.faulted = some r → t.faulted = some r)

/-- R7, R324: stepping one instance leaves every other instance as it was, and moves its own by its own step. That the step
draws its free values under the instance's own number is the model's (log 5). -/
def Obligations.InstancesAreIndependent : Prop :=
  ∀ (n : Nat) (l l' : List State), stepInstance n l = .next l' →
    l'.length = l.length ∧ (∀ m, m ≠ n → l'[m]? = l[m]?) ∧
      ∀ s, l[n]? = some s → ∃ t, step { s with board := n } = .next t ∧ l'[n]? = some t
end

