-- ==== Sys2Proof/Laws/Chans.lean ====
section
/-! SUPPORT. Channels and per-channel values. -/

namespace Sys2Proof.Machine

@[simp] theorem Channel.ofNat?_index (c : Channel) : Channel.ofNat? c.index = some c := by cases c <;> rfl

theorem Channel.index_lt (c : Channel) : c.index < 4 := by cases c <;> decide

theorem Channel.ofNat?_eq_some {n : Nat} {c : Channel} (h : Channel.ofNat? n = some c) : n = c.index := by
  unfold Channel.ofNat? at h
  split at h <;> cases h <;> rfl

theorem Channel.ofNat?_eq_none {n : Nat} : Channel.ofNat? n = none ↔ 4 ≤ n := by
  rcases n with _ | _ | _ | _ | n <;> simp [Channel.ofNat?]

theorem Channel.mem_all (c : Channel) : c ∈ Channel.all := by cases c <;> decide

@[simp] theorem Chans.get_set_self {α : Type} (v : Chans α) (c : Channel) (x : α) : (v.set c x).get c = x := by
  cases c <;> rfl

theorem Chans.get_set_ne {α : Type} (v : Chans α) {c d : Channel} (h : d ≠ c) (x : α) : (v.set c x).get d = v.get d := by
  cases c <;> cases d <;> first | rfl | exact absurd rfl h

@[simp] theorem Chans.get_ofFn {α : Type} (f : Channel → α) (c : Channel) : (Chans.ofFn f).get c = f c := by
  cases c <;> rfl

@[simp] theorem Chans.get_const {α : Type} (x : α) (c : Channel) : (Chans.const x).get c = x := by cases c <;> rfl

theorem Chans.ext_get {α : Type} {v w : Chans α} (h : ∀ c, v.get c = w.get c) : v = w := by
  have h0 := h .ch0
  have h1 := h .ch1
  have h2 := h .ch2
  have h3 := h .ch3
  cases v
  cases w
  simp only [Chans.get] at h0 h1 h2 h3
  subst h0 h1 h2 h3
  rfl

/-! ## Selection and sizes -/

/-- A channel is selected exactly when it is buffering-enabled and has the direction (00_scope R11). -/
theorem Store.mem_sel {st : Store} {d : Direction} {c : Channel} :
    c ∈ st.sel d ↔ st.bufEn.get c = true ∧ st.dir.get c = d := by
  simp [Store.sel, Store.elig, Channel.mem_all]

theorem Store.sel_length_le (st : Store) (d : Direction) : (st.sel d).length ≤ 4 :=
  List.length_filter_le _ _

theorem Store.sel_nodup (st : Store) (d : Direction) : (st.sel d).Nodup :=
  List.Nodup.filter _ (by decide)

@[simp] theorem Store.sel_recompute (st : Store) (d : Direction) : st.recompute.sel d = st.sel d := rfl

theorem Store.recompute_readSize (st : Store) : st.recompute.readSize.toNat = (st.sel .input).length := by
  have h := st.sel_length_le .input
  simp only [Store.recompute, BitVec.toNat_ofNat]
  omega

theorem Store.recompute_writeSize (st : Store) : st.recompute.writeSize.toNat = (st.sel .output).length := by
  have h := st.sel_length_le .output
  simp only [Store.recompute, BitVec.toNat_ofNat]
  omega

end Sys2Proof.Machine
end

