-- ==== Sys2Proof/Laws/State.lean ====
section
/-! SUPPORT. What each shared update does to each field of the state, by `rfl`. The updates that are another update with some
arguments fixed are rewritten to it. -/

namespace Sys2Proof.Machine

theorem State.succeed_eq (r : Word) (s : State) : s.succeed r = s.respond 0 r 0 := rfl

theorem State.raiseErr_eq (e : ErrCode) (s : State) : s.raiseErr e = s.respond e.code 0 0 := rfl

/-! ## `emit` -/

@[simp] theorem State.emit_life (l : List Event) (s : State) : (s.emit l).life = s.life := rfl
@[simp] theorem State.emit_store (l : List Event) (s : State) : (s.emit l).store = s.store := rfl
@[simp] theorem State.emit_irqEnable (l : List Event) (s : State) : (s.emit l).irqEnable = s.irqEnable := rfl
@[simp] theorem State.emit_irqPending (l : List Event) (s : State) : (s.emit l).irqPending = s.irqPending := rfl
@[simp] theorem State.emit_irqCount (l : List Event) (s : State) : (s.emit l).irqCount = s.irqCount := rfl
@[simp] theorem State.emit_sigTarget (l : List Event) (s : State) : (s.emit l).sigTarget = s.sigTarget := rfl
@[simp] theorem State.emit_debugLevel (l : List Event) (s : State) : (s.emit l).debugLevel = s.debugLevel := rfl
@[simp] theorem State.emit_isr (l : List Event) (s : State) : (s.emit l).isr = s.isr := rfl
@[simp] theorem State.emit_blk (l : List Event) (s : State) : (s.emit l).blk = s.blk := rfl
@[simp] theorem State.emit_rdWait (l : List Event) (s : State) : (s.emit l).rdWait = s.rdWait := rfl
@[simp] theorem State.emit_stuck (l : List Event) (s : State) : (s.emit l).stuck = s.stuck := rfl
@[simp] theorem State.emit_latch (l : List Event) (s : State) : (s.emit l).latch = s.latch := rfl
@[simp] theorem State.emit_outReg (l : List Event) (s : State) : (s.emit l).outReg = s.outReg := rfl
@[simp] theorem State.emit_transport (l : List Event) (s : State) : (s.emit l).transport = s.transport := rfl
@[simp] theorem State.emit_faulted (l : List Event) (s : State) : (s.emit l).faulted = s.faulted := rfl
@[simp] theorem State.emit_refused (l : List Event) (s : State) : (s.emit l).refused = s.refused := rfl
@[simp] theorem State.emit_resp (l : List Event) (s : State) : (s.emit l).resp = s.resp := rfl
@[simp] theorem State.emit_port (l : List Event) (s : State) : (s.emit l).port = s.port := rfl
@[simp] theorem State.emit_hmem (l : List Event) (s : State) : (s.emit l).hmem = s.hmem := rfl
@[simp] theorem State.emit_params (l : List Event) (s : State) : (s.emit l).params = s.params := rfl
@[simp] theorem State.emit_env (l : List Event) (s : State) : (s.emit l).env = s.env := rfl
@[simp] theorem State.emit_board (l : List Event) (s : State) : (s.emit l).board = s.board := rfl
@[simp] theorem State.emit_draws (l : List Event) (s : State) : (s.emit l).draws = s.draws := rfl
@[simp] theorem State.emit_events (l : List Event) (s : State) : (s.emit l).events = s.events ++ l := rfl
@[simp] theorem State.emit_inbox (l : List Event) (s : State) : (s.emit l).inbox = s.inbox := rfl

/-! ## `respond` -/

@[simp] theorem State.respond_life (a b c : Word) (s : State) : (s.respond a b c).life = s.life := rfl
@[simp] theorem State.respond_store (a b c : Word) (s : State) : (s.respond a b c).store = s.store := rfl
@[simp] theorem State.respond_irqEnable (a b c : Word) (s : State) : (s.respond a b c).irqEnable = s.irqEnable := rfl
@[simp] theorem State.respond_irqPending (a b c : Word) (s : State) : (s.respond a b c).irqPending = s.irqPending := rfl
@[simp] theorem State.respond_irqCount (a b c : Word) (s : State) : (s.respond a b c).irqCount = s.irqCount := rfl
@[simp] theorem State.respond_sigTarget (a b c : Word) (s : State) : (s.respond a b c).sigTarget = s.sigTarget := rfl
@[simp] theorem State.respond_debugLevel (a b c : Word) (s : State) : (s.respond a b c).debugLevel = s.debugLevel := rfl
@[simp] theorem State.respond_isr (a b c : Word) (s : State) : (s.respond a b c).isr = s.isr := rfl
@[simp] theorem State.respond_blk (a b c : Word) (s : State) : (s.respond a b c).blk = s.blk := rfl
@[simp] theorem State.respond_rdWait (a b c : Word) (s : State) : (s.respond a b c).rdWait = s.rdWait := rfl
@[simp] theorem State.respond_stuck (a b c : Word) (s : State) : (s.respond a b c).stuck = s.stuck := rfl
@[simp] theorem State.respond_latch (a b c : Word) (s : State) : (s.respond a b c).latch = s.latch := rfl
@[simp] theorem State.respond_outReg (a b c : Word) (s : State) : (s.respond a b c).outReg = s.outReg := rfl
@[simp] theorem State.respond_transport (a b c : Word) (s : State) : (s.respond a b c).transport = s.transport := rfl
@[simp] theorem State.respond_faulted (a b c : Word) (s : State) : (s.respond a b c).faulted = s.faulted := rfl
@[simp] theorem State.respond_refused (a b c : Word) (s : State) : (s.respond a b c).refused = s.refused := rfl
@[simp] theorem State.respond_resp (a b c : Word) (s : State) : (s.respond a b c).resp = { status := a, res := b, res2 := c } := rfl
@[simp] theorem State.respond_port (a b c : Word) (s : State) : (s.respond a b c).port = s.port := rfl
@[simp] theorem State.respond_hmem (a b c : Word) (s : State) : (s.respond a b c).hmem = s.hmem := rfl
@[simp] theorem State.respond_params (a b c : Word) (s : State) : (s.respond a b c).params = s.params := rfl
@[simp] theorem State.respond_env (a b c : Word) (s : State) : (s.respond a b c).env = s.env := rfl
@[simp] theorem State.respond_board (a b c : Word) (s : State) : (s.respond a b c).board = s.board := rfl
@[simp] theorem State.respond_draws (a b c : Word) (s : State) : (s.respond a b c).draws = s.draws := rfl
@[simp] theorem State.respond_events (a b c : Word) (s : State) : (s.respond a b c).events = s.events ++ [.response a b c] := rfl
@[simp] theorem State.respond_inbox (a b c : Word) (s : State) : (s.respond a b c).inbox = s.inbox := rfl

/-! ## `portRead` -/

@[simp] theorem State.portRead_life (c : Channel) (s : State) : (s.portRead c).life = s.life := rfl
@[simp] theorem State.portRead_store (c : Channel) (s : State) : (s.portRead c).store = s.store := rfl
@[simp] theorem State.portRead_irqEnable (c : Channel) (s : State) : (s.portRead c).irqEnable = s.irqEnable := rfl
@[simp] theorem State.portRead_irqPending (c : Channel) (s : State) : (s.portRead c).irqPending = s.irqPending := rfl
@[simp] theorem State.portRead_irqCount (c : Channel) (s : State) : (s.portRead c).irqCount = s.irqCount := rfl
@[simp] theorem State.portRead_sigTarget (c : Channel) (s : State) : (s.portRead c).sigTarget = s.sigTarget := rfl
@[simp] theorem State.portRead_debugLevel (c : Channel) (s : State) : (s.portRead c).debugLevel = s.debugLevel := rfl
@[simp] theorem State.portRead_isr (c : Channel) (s : State) : (s.portRead c).isr = s.isr := rfl
@[simp] theorem State.portRead_blk (c : Channel) (s : State) : (s.portRead c).blk = s.blk := rfl
@[simp] theorem State.portRead_rdWait (c : Channel) (s : State) : (s.portRead c).rdWait = s.rdWait := rfl
@[simp] theorem State.portRead_stuck (c : Channel) (s : State) : (s.portRead c).stuck = s.stuck := rfl
@[simp] theorem State.portRead_latch (c : Channel) (s : State) : (s.portRead c).latch = s.latchesAfterRead c := rfl
@[simp] theorem State.portRead_outReg (c : Channel) (s : State) : (s.portRead c).outReg = s.outReg := rfl
@[simp] theorem State.portRead_transport (c : Channel) (s : State) : (s.portRead c).transport = s.transport := rfl
@[simp] theorem State.portRead_faulted (c : Channel) (s : State) : (s.portRead c).faulted = s.faulted := rfl
@[simp] theorem State.portRead_refused (c : Channel) (s : State) : (s.portRead c).refused = s.refused := rfl
@[simp] theorem State.portRead_resp (c : Channel) (s : State) : (s.portRead c).resp = s.resp := rfl
@[simp] theorem State.portRead_port (c : Channel) (s : State) : (s.portRead c).port = s.port := rfl
@[simp] theorem State.portRead_hmem (c : Channel) (s : State) : (s.portRead c).hmem = s.hmem := rfl
@[simp] theorem State.portRead_params (c : Channel) (s : State) : (s.portRead c).params = s.params := rfl
@[simp] theorem State.portRead_env (c : Channel) (s : State) : (s.portRead c).env = s.env := rfl
@[simp] theorem State.portRead_board (c : Channel) (s : State) : (s.portRead c).board = s.board := rfl
@[simp] theorem State.portRead_draws (c : Channel) (s : State) : (s.portRead c).draws = s.draws + 1 := rfl
@[simp] theorem State.portRead_events (c : Channel) (s : State) : (s.portRead c).events = s.events ++ [.portRead c (s.portValue c)] := rfl
@[simp] theorem State.portRead_inbox (c : Channel) (s : State) : (s.portRead c).inbox = s.inbox := rfl

/-! ## `portWrite` -/

@[simp] theorem State.portWrite_life (c : Channel) (b : Byte) (s : State) : (s.portWrite c b).life = s.life := rfl
@[simp] theorem State.portWrite_store (c : Channel) (b : Byte) (s : State) : (s.portWrite c b).store = s.store := rfl
@[simp] theorem State.portWrite_irqEnable (c : Channel) (b : Byte) (s : State) : (s.portWrite c b).irqEnable = s.irqEnable := rfl
@[simp] theorem State.portWrite_irqPending (c : Channel) (b : Byte) (s : State) : (s.portWrite c b).irqPending = s.irqPending := rfl
@[simp] theorem State.portWrite_irqCount (c : Channel) (b : Byte) (s : State) : (s.portWrite c b).irqCount = s.irqCount := rfl
@[simp] theorem State.portWrite_sigTarget (c : Channel) (b : Byte) (s : State) : (s.portWrite c b).sigTarget = s.sigTarget := rfl
@[simp] theorem State.portWrite_debugLevel (c : Channel) (b : Byte) (s : State) : (s.portWrite c b).debugLevel = s.debugLevel := rfl
@[simp] theorem State.portWrite_isr (c : Channel) (b : Byte) (s : State) : (s.portWrite c b).isr = s.isr := rfl
@[simp] theorem State.portWrite_blk (c : Channel) (b : Byte) (s : State) : (s.portWrite c b).blk = s.blk := rfl
@[simp] theorem State.portWrite_rdWait (c : Channel) (b : Byte) (s : State) : (s.portWrite c b).rdWait = s.rdWait := rfl
@[simp] theorem State.portWrite_stuck (c : Channel) (b : Byte) (s : State) : (s.portWrite c b).stuck = s.stuck := rfl
@[simp] theorem State.portWrite_latch (c : Channel) (b : Byte) (s : State) : (s.portWrite c b).latch = s.latch := rfl
@[simp] theorem State.portWrite_outReg (c : Channel) (b : Byte) (s : State) : (s.portWrite c b).outReg = s.outReg.set c (some b) := rfl
@[simp] theorem State.portWrite_transport (c : Channel) (b : Byte) (s : State) : (s.portWrite c b).transport = s.transport := rfl
@[simp] theorem State.portWrite_faulted (c : Channel) (b : Byte) (s : State) : (s.portWrite c b).faulted = s.faulted := rfl
@[simp] theorem State.portWrite_refused (c : Channel) (b : Byte) (s : State) : (s.portWrite c b).refused = s.refused := rfl
@[simp] theorem State.portWrite_resp (c : Channel) (b : Byte) (s : State) : (s.portWrite c b).resp = s.resp := rfl
@[simp] theorem State.portWrite_port (c : Channel) (b : Byte) (s : State) : (s.portWrite c b).port = s.port := rfl
@[simp] theorem State.portWrite_hmem (c : Channel) (b : Byte) (s : State) : (s.portWrite c b).hmem = s.hmem := rfl
@[simp] theorem State.portWrite_params (c : Channel) (b : Byte) (s : State) : (s.portWrite c b).params = s.params := rfl
@[simp] theorem State.portWrite_env (c : Channel) (b : Byte) (s : State) : (s.portWrite c b).env = s.env := rfl
@[simp] theorem State.portWrite_board (c : Channel) (b : Byte) (s : State) : (s.portWrite c b).board = s.board := rfl
@[simp] theorem State.portWrite_draws (c : Channel) (b : Byte) (s : State) : (s.portWrite c b).draws = s.draws := rfl
@[simp] theorem State.portWrite_events (c : Channel) (b : Byte) (s : State) : (s.portWrite c b).events = s.events ++ [.portWrite c b] := rfl
@[simp] theorem State.portWrite_inbox (c : Channel) (b : Byte) (s : State) : (s.portWrite c b).inbox = s.inbox := rfl

/-! ## `edgeEvent` -/

@[simp] theorem State.edgeEvent_life (s : State) : (s.edgeEvent).life = s.life := rfl
@[simp] theorem State.edgeEvent_store (s : State) : (s.edgeEvent).store = s.store := rfl
@[simp] theorem State.edgeEvent_irqEnable (s : State) : (s.edgeEvent).irqEnable = s.irqEnable := rfl
@[simp] theorem State.edgeEvent_irqPending (s : State) : (s.edgeEvent).irqPending = if s.irqEnable then true else s.irqPending || s.drawBit 0 := rfl
@[simp] theorem State.edgeEvent_irqCount (s : State) : (s.edgeEvent).irqCount = s.irqCount := rfl
@[simp] theorem State.edgeEvent_sigTarget (s : State) : (s.edgeEvent).sigTarget = s.sigTarget := rfl
@[simp] theorem State.edgeEvent_debugLevel (s : State) : (s.edgeEvent).debugLevel = s.debugLevel := rfl
@[simp] theorem State.edgeEvent_isr (s : State) : (s.edgeEvent).isr = s.isr := rfl
@[simp] theorem State.edgeEvent_blk (s : State) : (s.edgeEvent).blk = s.blk := rfl
@[simp] theorem State.edgeEvent_rdWait (s : State) : (s.edgeEvent).rdWait = s.rdWait := rfl
@[simp] theorem State.edgeEvent_stuck (s : State) : (s.edgeEvent).stuck = s.stuck := rfl
@[simp] theorem State.edgeEvent_latch (s : State) : (s.edgeEvent).latch = Chans.ofFn s.latchAfterEdge := rfl
@[simp] theorem State.edgeEvent_outReg (s : State) : (s.edgeEvent).outReg = s.outReg := rfl
@[simp] theorem State.edgeEvent_transport (s : State) : (s.edgeEvent).transport = s.transport := rfl
@[simp] theorem State.edgeEvent_faulted (s : State) : (s.edgeEvent).faulted = s.faulted := rfl
@[simp] theorem State.edgeEvent_refused (s : State) : (s.edgeEvent).refused = s.refused := rfl
@[simp] theorem State.edgeEvent_resp (s : State) : (s.edgeEvent).resp = s.resp := rfl
@[simp] theorem State.edgeEvent_port (s : State) : (s.edgeEvent).port = s.port := rfl
@[simp] theorem State.edgeEvent_hmem (s : State) : (s.edgeEvent).hmem = s.hmem := rfl
@[simp] theorem State.edgeEvent_params (s : State) : (s.edgeEvent).params = s.params := rfl
@[simp] theorem State.edgeEvent_env (s : State) : (s.edgeEvent).env = s.env := rfl
@[simp] theorem State.edgeEvent_board (s : State) : (s.edgeEvent).board = s.board := rfl
@[simp] theorem State.edgeEvent_draws (s : State) : (s.edgeEvent).draws = s.draws + 1 := rfl
@[simp] theorem State.edgeEvent_events (s : State) : (s.edgeEvent).events = s.events := rfl
@[simp] theorem State.edgeEvent_inbox (s : State) : (s.edgeEvent).inbox = s.inbox := rfl

/-! ## `ackIrq` -/

@[simp] theorem State.ackIrq_life (s : State) : (s.ackIrq).life = s.life := rfl
@[simp] theorem State.ackIrq_store (s : State) : (s.ackIrq).store = s.store := rfl
@[simp] theorem State.ackIrq_irqEnable (s : State) : (s.ackIrq).irqEnable = s.irqEnable := rfl
@[simp] theorem State.ackIrq_irqPending (s : State) : (s.ackIrq).irqPending = false := rfl
@[simp] theorem State.ackIrq_irqCount (s : State) : (s.ackIrq).irqCount = s.irqCount := rfl
@[simp] theorem State.ackIrq_sigTarget (s : State) : (s.ackIrq).sigTarget = s.sigTarget := rfl
@[simp] theorem State.ackIrq_debugLevel (s : State) : (s.ackIrq).debugLevel = s.debugLevel := rfl
@[simp] theorem State.ackIrq_isr (s : State) : (s.ackIrq).isr = s.isr := rfl
@[simp] theorem State.ackIrq_blk (s : State) : (s.ackIrq).blk = s.blk := rfl
@[simp] theorem State.ackIrq_rdWait (s : State) : (s.ackIrq).rdWait = s.rdWait := rfl
@[simp] theorem State.ackIrq_stuck (s : State) : (s.ackIrq).stuck = s.stuck := rfl
@[simp] theorem State.ackIrq_latch (s : State) : (s.ackIrq).latch = s.latch := rfl
@[simp] theorem State.ackIrq_outReg (s : State) : (s.ackIrq).outReg = s.outReg := rfl
@[simp] theorem State.ackIrq_transport (s : State) : (s.ackIrq).transport = s.transport := rfl
@[simp] theorem State.ackIrq_faulted (s : State) : (s.ackIrq).faulted = s.faulted := rfl
@[simp] theorem State.ackIrq_refused (s : State) : (s.ackIrq).refused = s.refused := rfl
@[simp] theorem State.ackIrq_resp (s : State) : (s.ackIrq).resp = s.resp := rfl
@[simp] theorem State.ackIrq_port (s : State) : (s.ackIrq).port = s.port := rfl
@[simp] theorem State.ackIrq_hmem (s : State) : (s.ackIrq).hmem = s.hmem := rfl
@[simp] theorem State.ackIrq_params (s : State) : (s.ackIrq).params = s.params := rfl
@[simp] theorem State.ackIrq_env (s : State) : (s.ackIrq).env = s.env := rfl
@[simp] theorem State.ackIrq_board (s : State) : (s.ackIrq).board = s.board := rfl
@[simp] theorem State.ackIrq_draws (s : State) : (s.ackIrq).draws = s.draws := rfl
@[simp] theorem State.ackIrq_events (s : State) : (s.ackIrq).events = s.events ++ [.ackIrq] := rfl
@[simp] theorem State.ackIrq_inbox (s : State) : (s.ackIrq).inbox = s.inbox := rfl

/-! ## `refuse` -/

@[simp] theorem State.refuse_life (r : RefuseReason) (s : State) : (s.refuse r).life = s.life := rfl
@[simp] theorem State.refuse_store (r : RefuseReason) (s : State) : (s.refuse r).store = s.store := rfl
@[simp] theorem State.refuse_irqEnable (r : RefuseReason) (s : State) : (s.refuse r).irqEnable = s.irqEnable := rfl
@[simp] theorem State.refuse_irqPending (r : RefuseReason) (s : State) : (s.refuse r).irqPending = s.irqPending := rfl
@[simp] theorem State.refuse_irqCount (r : RefuseReason) (s : State) : (s.refuse r).irqCount = s.irqCount := rfl
@[simp] theorem State.refuse_sigTarget (r : RefuseReason) (s : State) : (s.refuse r).sigTarget = s.sigTarget := rfl
@[simp] theorem State.refuse_debugLevel (r : RefuseReason) (s : State) : (s.refuse r).debugLevel = s.debugLevel := rfl
@[simp] theorem State.refuse_isr (r : RefuseReason) (s : State) : (s.refuse r).isr = s.isr := rfl
@[simp] theorem State.refuse_blk (r : RefuseReason) (s : State) : (s.refuse r).blk = s.blk := rfl
@[simp] theorem State.refuse_rdWait (r : RefuseReason) (s : State) : (s.refuse r).rdWait = s.rdWait := rfl
@[simp] theorem State.refuse_stuck (r : RefuseReason) (s : State) : (s.refuse r).stuck = s.stuck := rfl
@[simp] theorem State.refuse_latch (r : RefuseReason) (s : State) : (s.refuse r).latch = s.latch := rfl
@[simp] theorem State.refuse_outReg (r : RefuseReason) (s : State) : (s.refuse r).outReg = s.outReg := rfl
@[simp] theorem State.refuse_transport (r : RefuseReason) (s : State) : (s.refuse r).transport = s.transport := rfl
@[simp] theorem State.refuse_faulted (r : RefuseReason) (s : State) : (s.refuse r).faulted = s.faulted := rfl
@[simp] theorem State.refuse_resp (r : RefuseReason) (s : State) : (s.refuse r).resp = s.resp := rfl
@[simp] theorem State.refuse_port (r : RefuseReason) (s : State) : (s.refuse r).port = s.port := rfl
@[simp] theorem State.refuse_hmem (r : RefuseReason) (s : State) : (s.refuse r).hmem = s.hmem := rfl
@[simp] theorem State.refuse_params (r : RefuseReason) (s : State) : (s.refuse r).params = s.params := rfl
@[simp] theorem State.refuse_env (r : RefuseReason) (s : State) : (s.refuse r).env = s.env := rfl
@[simp] theorem State.refuse_board (r : RefuseReason) (s : State) : (s.refuse r).board = s.board := rfl
@[simp] theorem State.refuse_draws (r : RefuseReason) (s : State) : (s.refuse r).draws = s.draws := rfl
@[simp] theorem State.refuse_events (r : RefuseReason) (s : State) : (s.refuse r).events = s.events := rfl
@[simp] theorem State.refuse_inbox (r : RefuseReason) (s : State) : (s.refuse r).inbox = s.inbox := rfl

/-! ## `markFault` -/

@[simp] theorem State.markFault_life (r : FaultReason) (s : State) : (s.markFault r).life = s.life := rfl
@[simp] theorem State.markFault_store (r : FaultReason) (s : State) : (s.markFault r).store = s.store := rfl
@[simp] theorem State.markFault_irqEnable (r : FaultReason) (s : State) : (s.markFault r).irqEnable = s.irqEnable := rfl
@[simp] theorem State.markFault_irqPending (r : FaultReason) (s : State) : (s.markFault r).irqPending = s.irqPending := rfl
@[simp] theorem State.markFault_irqCount (r : FaultReason) (s : State) : (s.markFault r).irqCount = s.irqCount := rfl
@[simp] theorem State.markFault_sigTarget (r : FaultReason) (s : State) : (s.markFault r).sigTarget = s.sigTarget := rfl
@[simp] theorem State.markFault_debugLevel (r : FaultReason) (s : State) : (s.markFault r).debugLevel = s.debugLevel := rfl
@[simp] theorem State.markFault_isr (r : FaultReason) (s : State) : (s.markFault r).isr = s.isr := rfl
@[simp] theorem State.markFault_blk (r : FaultReason) (s : State) : (s.markFault r).blk = s.blk := rfl
@[simp] theorem State.markFault_rdWait (r : FaultReason) (s : State) : (s.markFault r).rdWait = s.rdWait := rfl
@[simp] theorem State.markFault_stuck (r : FaultReason) (s : State) : (s.markFault r).stuck = s.stuck := rfl
@[simp] theorem State.markFault_latch (r : FaultReason) (s : State) : (s.markFault r).latch = s.latch := rfl
@[simp] theorem State.markFault_outReg (r : FaultReason) (s : State) : (s.markFault r).outReg = s.outReg := rfl
@[simp] theorem State.markFault_transport (r : FaultReason) (s : State) : (s.markFault r).transport = s.transport := rfl
@[simp] theorem State.markFault_refused (r : FaultReason) (s : State) : (s.markFault r).refused = s.refused := rfl
@[simp] theorem State.markFault_resp (r : FaultReason) (s : State) : (s.markFault r).resp = s.resp := rfl
@[simp] theorem State.markFault_port (r : FaultReason) (s : State) : (s.markFault r).port = s.port := rfl
@[simp] theorem State.markFault_hmem (r : FaultReason) (s : State) : (s.markFault r).hmem = s.hmem := rfl
@[simp] theorem State.markFault_params (r : FaultReason) (s : State) : (s.markFault r).params = s.params := rfl
@[simp] theorem State.markFault_env (r : FaultReason) (s : State) : (s.markFault r).env = s.env := rfl
@[simp] theorem State.markFault_board (r : FaultReason) (s : State) : (s.markFault r).board = s.board := rfl
@[simp] theorem State.markFault_draws (r : FaultReason) (s : State) : (s.markFault r).draws = s.draws := rfl
@[simp] theorem State.markFault_events (r : FaultReason) (s : State) : (s.markFault r).events = s.events := rfl
@[simp] theorem State.markFault_inbox (r : FaultReason) (s : State) : (s.markFault r).inbox = s.inbox := rfl

/-! ## The sticky marks keep their first reason (R42) -/

theorem State.refuse_refused_of_none {s : State} (h : s.refused = none) (r : RefuseReason) :
    (s.refuse r).refused = some r := by simp [State.refuse, h]

theorem State.refuse_refused_of_some {s : State} {r₀ : RefuseReason} (h : s.refused = some r₀) (r : RefuseReason) :
    (s.refuse r).refused = some r₀ := by simp [State.refuse, h]

theorem State.markFault_faulted_of_none {s : State} (h : s.faulted = none) (r : FaultReason) :
    (s.markFault r).faulted = some r := by simp [State.markFault, h]

theorem State.markFault_faulted_of_some {s : State} {r₀ : FaultReason} (h : s.faulted = some r₀) (r : FaultReason) :
    (s.markFault r).faulted = some r₀ := by simp [State.markFault, h]

end Sys2Proof.Machine
end

