-- ==== Sys2Proof/Laws/Ops.lean ====
section
/-! SUPPORT. One lemma for each shared operation, saying once what it can do. -/

namespace Sys2Proof.Machine

/-! ## The gate and the operands -/

theorem State.whenActive_of_active {s : State} (h : s.life = .active) (t : State) : s.whenActive t = t := by
  simp [State.whenActive, h]

theorem State.whenActive_of_uninit {s : State} (h : s.life = .uninit) (t : State) :
    s.whenActive t = s.refuse .notInitialized := by simp [State.whenActive, h]

/-- Whatever holds of the refused state and of a command's own result holds behind the gate. -/
theorem State.whenActive_ind {P : State → Prop} {s t : State} (hr : P (s.refuse .notInitialized))
    (ht : s.life = .active → P t) : P (s.whenActive t) := by
  unfold State.whenActive
  split
  · next h => exact ht h
  · exact hr

@[simp] theorem State.withChannel_index (s : State) (c : Channel) (k : Channel → State) : s.withChannel c.index k = k c := by
  simp [State.withChannel]

theorem State.withChannel_of_le {s : State} {ch : Nat} (h : 4 ≤ ch) (k : Channel → State) :
    s.withChannel ch k = s.markFault .channelOutOfRange := by
  simp [State.withChannel, Channel.ofNat?_eq_none.mpr h]

/-- Whatever holds of the marked fault and for every channel holds of a channel operand. -/
theorem State.withChannel_ind {P : State → Prop} {s : State} {ch : Nat} {k : Channel → State}
    (hf : P (s.markFault .channelOutOfRange)) (hk : ∀ c, P (k c)) : P (s.withChannel ch k) := by
  unfold State.withChannel
  split
  · exact hk _
  · exact hf

/-- Whatever holds of IllegalParameter and for every value of the domain holds of a value operand. -/
theorem State.withValue_ind {P : State → Prop} {α : Type} {s : State} {v : Option α} {k : α → State}
    (he : P (s.raiseErr .illegalParameter)) (hk : ∀ x, v = some x → P (k x)) : P (s.withValue v k) := by
  unfold State.withValue
  split
  · exact hk _ rfl
  · exact he

@[simp] theorem State.withValue_some {α : Type} (s : State) (x : α) (k : α → State) : s.withValue (some x) k = k x := rfl

@[simp] theorem State.withValue_none {α : Type} (s : State) (k : α → State) :
    s.withValue none k = s.raiseErr .illegalParameter := rfl

theorem twoValued_eq_none {α : Type} {a b : α} {w : Word} (h : 1 < w.toNat) : twoValued a b w = none := by
  unfold twoValued
  rw [if_neg (by rintro rfl; simp at h), if_neg (by rintro rfl; simp at h)]

@[simp] theorem twoValued_zero {α : Type} (a b : α) : twoValued a b 0 = some a := rfl

@[simp] theorem twoValued_one {α : Type} (a b : α) : twoValued a b 1 = some b := rfl

theorem modeOfWord?_eq_none {w : Word} (h : 7 < w.toNat) : modeOfWord? w = none := if_neg (by omega)

theorem modeOfWord?_setWidth (m : BitVec 3) : modeOfWord? (m.setWidth 32) = some m := by
  revert m
  decide

theorem TransportMode.ofWord?_code (m : TransportMode) : TransportMode.ofWord? m.code = some m := by cases m <;> rfl

theorem TransportMode.ofWord?_eq_none {w : Word} (h : 3 < w.toNat) : TransportMode.ofWord? w = none := by
  unfold TransportMode.ofWord?
  rw [if_neg (by rintro rfl; simp at h), if_neg (by rintro rfl; simp at h), if_neg (by rintro rfl; simp at h),
    if_neg (by rintro rfl; simp at h)]

/-! ## Host buffer -/

theorem hmemAdmits_iff {p : Config.Params} {addr : Word} {n : Nat} :
    hmemAdmits p addr n = true ↔ ∀ k < n, hmemExists p (addr.toNat + k) = true := by
  simp [hmemAdmits]

/-! ## Block commands -/

/-- What a check step can do (43_block_io R191, R200). -/
theorem State.startBlock_cases (op : BlkOp) (s : State) :
    (op.size s.store = 0 ∧ s.startBlock op = s.raiseErr .noChannelsEnabled) ∨
    (op.size s.store ≠ 0 ∧ s.port.val.toNat < (op.size s.store).toNat ∧ s.startBlock op = s.raiseErr .bufferTooSmall) ∨
    (op.size s.store ≠ 0 ∧ (op.size s.store).toNat ≤ s.port.val.toNat ∧
      hmemAdmits s.params s.port.addr (op.size s.store).toNat = true ∧
      s.startBlock op =
        { s with
            blk := some { op := op, chans := s.store.sel op.direction, k := 0, addr := s.port.addr }
            events := s.events ++ op.queries s.transport.mode }) ∨
    (op.size s.store ≠ 0 ∧ (op.size s.store).toNat ≤ s.port.val.toNat ∧
      hmemAdmits s.params s.port.addr (op.size s.store).toNat = false ∧ s.startBlock op = { s with stuck := true }) := by
  unfold State.startBlock
  by_cases h0 : op.size s.store = 0
  · exact .inl ⟨h0, if_pos h0⟩
  · rw [if_neg h0]
    by_cases h1 : s.port.val.toNat < (op.size s.store).toNat
    · exact .inr (.inl ⟨h0, h1, if_pos h1⟩)
    · rw [if_neg h1]
      cases h2 : hmemAdmits s.params s.port.addr (op.size s.store).toNat
      · exact .inr (.inr (.inr ⟨h0, by omega, rfl, rfl⟩))
      · exact .inr (.inr (.inl ⟨h0, by omega, rfl, rfl⟩))

/-- What a transfer does besides the bytes it moves: it touches the module, the host buffer, the draws and the log only. -/
theorem State.transferByte_frame (op : BlkOp) (c : Channel) (a : Nat) (s : State) :
    s.transferByte op c a =
      { s with
          latch := (s.transferByte op c a).latch, outReg := (s.transferByte op c a).outReg
          hmem := (s.transferByte op c a).hmem, draws := (s.transferByte op c a).draws
          events := (s.transferByte op c a).events } := by
  cases op <;> rfl

/-- How the cursor moves after a transfer. -/
theorem State.advanceBlock_cases (cur : BlkCursor) (s : State) :
    (cur.k + 1 = cur.chans.length ∧
      s.advanceBlock cur = { s with blk := none }.succeed (BitVec.ofNat 32 cur.chans.length)) ∨
    (cur.k + 1 ≠ cur.chans.length ∧ s.advanceBlock cur = { s with blk := some { cur with k := cur.k + 1 } }) := by
  unfold State.advanceBlock
  split
  · next h => exact .inl ⟨h, rfl⟩
  · next h => exact .inr ⟨h, rfl⟩

/-- What a transfer step can do. -/
theorem transferStep_cases (cur : BlkCursor) (s : State) :
    (cur.chans[cur.k]? = none ∧ transferStep cur s = .next s) ∨
    (∃ c, cur.chans[cur.k]? = some c ∧ hmemExists s.params (cur.addr.toNat + cur.k) = true ∧
      transferStep cur s = .next ((s.transferByte cur.op c (cur.addr.toNat + cur.k)).advanceBlock cur)) ∨
    (∃ c, cur.chans[cur.k]? = some c ∧ hmemExists s.params (cur.addr.toNat + cur.k) = false ∧
      transferStep cur s = .fault (.hmemAbsent (cur.addr.toNat + cur.k))) := by
  unfold transferStep
  split
  · next h => exact .inl ⟨h, rfl⟩
  · next c h =>
    cases hx : hmemExists s.params (cur.addr.toNat + cur.k)
    · exact .inr (.inr ⟨c, h, rfl, rfl⟩)
    · exact .inr (.inl ⟨c, h, rfl, rfl⟩)

/-- What the completing step of a delegated read can do (R192). -/
theorem State.finishWait_cases (w : ReadWait) (r : BufAnswer) (s : State) :
    (∃ code, r = .err code ∧ s.finishWait w r = { s with rdWait := none }.respond 11 code 0) ∨
    (∃ l, r = .bytes l ∧ hmemAdmits s.params w.addr l.length = true ∧
      s.finishWait w r =
        { s with rdWait := none, hmem := memSetList s.hmem w.addr.toNat l
                 events := s.events ++ memWriteEvents w.addr.toNat l }.respond 0 (BitVec.ofNat 32 l.length)
          s.transport.mode.code) ∨
    (∃ l, r = .bytes l ∧ hmemAdmits s.params w.addr l.length = false ∧ s.finishWait w r = { s with stuck := true }) := by
  cases r with
  | err code => exact .inl ⟨code, rfl, rfl⟩
  | bytes l =>
    cases h : hmemAdmits s.params w.addr l.length
    · exact .inr (.inr ⟨l, rfl, h, by simp [State.finishWait, h]⟩)
    · exact .inr (.inl ⟨l, rfl, h, by simp [State.finishWait, h]⟩)

theorem callStep_of_stuck {s : State} (h : s.stuck = true) : callStep s = .next s := by simp [callStep, h]

theorem callStep_of_blk {s : State} {cur : BlkCursor} (hs : s.stuck = false) (hb : s.blk = some cur) :
    callStep s = transferStep cur s := by simp [callStep, hs, hb]

theorem callStep_of_answer {s : State} {cap addr : Word} {r : BufAnswer} (hs : s.stuck = false) (hb : s.blk = none)
    (hw : s.rdWait = some { cap := cap, addr := addr, answer := some r }) :
    callStep s = .next (s.finishWait { cap := cap, addr := addr, answer := some r } r) := by simp [callStep, hs, hb, hw]

theorem callStep_of_waiting {s : State} {cap addr : Word} (hb : s.blk = none)
    (hw : s.rdWait = some { cap := cap, addr := addr, answer := none }) : callStep s = .next s := by simp [callStep, hb, hw]

theorem callStep_of_free {s : State} (hb : s.blk = none) (hw : s.rdWait = none) : callStep s = .next s := by
  simp [callStep, hb, hw]

/-- What the call context can do in its turn: nothing, a transfer, or the completion of an answered read (R82). -/
theorem callStep_cases (s : State) :
    ((s.stuck = true ∨ s.blk = none) ∧ callStep s = .next s) ∨
    (s.stuck = false ∧ ∃ cur, s.blk = some cur ∧ callStep s = transferStep cur s) ∨
    (s.stuck = false ∧ s.blk = none ∧ ∃ cap addr r, s.rdWait = some { cap := cap, addr := addr, answer := some r } ∧
      callStep s = .next (s.finishWait { cap := cap, addr := addr, answer := some r } r)) := by
  cases hs : s.stuck with
  | true => exact .inl ⟨.inl rfl, callStep_of_stuck hs⟩
  | false =>
    cases hb : s.blk with
    | some cur => exact .inr (.inl ⟨rfl, cur, rfl, callStep_of_blk hs hb⟩)
    | none =>
      cases hw : s.rdWait with
      | none => exact .inl ⟨.inr rfl, callStep_of_free hb hw⟩
      | some w =>
        obtain ⟨cap, addr, ans⟩ := w
        cases ans with
        | none => exact .inl ⟨.inr rfl, callStep_of_waiting hb hw⟩
        | some r => exact .inr (.inr ⟨rfl, rfl, cap, addr, r, rfl, callStep_of_answer hs hb hw⟩)

theorem ownStep_of_isr {s : State} (h : s.isr ≠ .idle) : ownStep s = .next s.isrStep := by
  unfold ownStep
  split
  · next hi => exact absurd hi h
  all_goals rfl

theorem ownStep_of_request {s : State} (hi : s.isr = .idle) (hl : s.life = .active) (hr : s.request = true) :
    ownStep s = .next s.enterIsr := by
  simp [ownStep, hi, hl, hr, execServiceIrq, State.serviceEnabled]

theorem ownStep_of_call {s : State} (hi : s.isr = .idle) (hr : s.life = .active → s.request = false) :
    ownStep s = callStep s := by
  unfold ownStep
  simp only [hi]
  cases hl : s.life with
  | uninit => rfl
  | active => rw [hr hl]; rfl

/-- What the block's own agents can do: the running ISR, the dispatch of a request, or the call context (R83, R316). -/
theorem ownStep_cases (s : State) :
    (s.isr ≠ .idle ∧ ownStep s = .next s.isrStep) ∨
    (s.isr = .idle ∧ s.life = .active ∧ s.request = true ∧ ownStep s = .next s.enterIsr) ∨
    (s.isr = .idle ∧ (s.life = .active → s.request = false) ∧ ownStep s = callStep s) := by
  by_cases hi : s.isr = .idle
  · by_cases hr : s.life = .active ∧ s.request = true
    · exact .inr (.inl ⟨hi, hr.1, hr.2, ownStep_of_request hi hr.1 hr.2⟩)
    · have hr : s.life = .active → s.request = false := fun hl => by
        cases h : s.request with
        | false => rfl
        | true => exact absurd ⟨hl, h⟩ hr
      exact .inr (.inr ⟨hi, hr, ownStep_of_call hi hr⟩)
  · exact .inl ⟨hi, ownStep_of_isr hi⟩

/-- What one step can do: the block's own agents move (a held or absent input stays), the call context has a turn of its own, the
environment moves, or the head of the line-up is taken and runs a decoded word or an API call's command. -/
theorem step_cases (s : State) :
    (∃ rest, (s.inbox = rest ∨ s.inbox = .tick :: rest) ∧ step s = ownStep { s with inbox := rest }) ∨
    (∃ rest, s.inbox = .callTurn :: rest ∧ s.isr = .idle ∧ step s = callStep { s with inbox := rest }) ∨
    (∃ m rest, s.inbox = .env m :: rest ∧ step s = .next ({ s with inbox := rest }.envMove m)) ∨
    (∃ p rest, s.inbox = .command p :: rest ∧ s.callBoundary = true ∧
      step s = runDecoded (decode .command p.cmd) { s with inbox := rest, port := p }) ∨
    (∃ w rest, s.inbox = .service w :: rest ∧ s.isr = .idle ∧
      step s = runDecoded (decode .interrupt w) { s with inbox := rest }) ∨
    (∃ a rest, s.inbox = .api a :: rest ∧ s.isr = .idle ∧ (a.instr.port = .command → s.callBoundary = true) ∧
      step s = exec a.instr { s with inbox := rest, port := a.operands s.port }) := by
  unfold step inboxStep
  split
  · next h => exact .inl ⟨[], .inl h, by rw [← h]⟩
  · next rest h => exact .inl ⟨rest, .inr h, rfl⟩
  · next rest h =>
    split
    · next hi => exact .inr (.inl ⟨rest, h, hi, rfl⟩)
    · exact .inl ⟨s.inbox, .inl rfl, rfl⟩
  · next m rest h => exact .inr (.inr (.inl ⟨m, rest, h, rfl⟩))
  · next p rest h =>
    split
    · next hb => exact .inr (.inr (.inr (.inl ⟨p, rest, h, hb, rfl⟩)))
    · exact .inl ⟨s.inbox, .inl rfl, rfl⟩
  · next a rest h =>
    split
    · next hp =>
      split
      · next hb =>
        have hi : s.isr = .idle := by
          simp only [State.callBoundary, Bool.and_eq_true, decide_eq_true_eq] at hb
          exact hb.1
        exact .inr (.inr (.inr (.inr (.inr ⟨a, rest, h, hi, fun _ => hb, rfl⟩))))
      · exact .inl ⟨s.inbox, .inl rfl, rfl⟩
    · next hp =>
      split
      · next hi => exact .inr (.inr (.inr (.inr (.inr ⟨a, rest, h, hi, fun hc => by simp [hp] at hc, rfl⟩))))
      · exact .inl ⟨s.inbox, .inl rfl, rfl⟩
  · next w rest h =>
    split
    · next hi => exact .inr (.inr (.inr (.inr (.inl ⟨w, rest, h, hi, rfl⟩))))
    · exact .inl ⟨s.inbox, .inl rfl, rfl⟩

/-! ## Every command answers a next state -/

theorem exec_next (i : Instr) (s : State) : ∃ t, exec i s = .next t := by cases i <;> exact ⟨_, rfl⟩

theorem runDecoded_next (d : Decoded) (s : State) : ∃ t, runDecoded d s = .next t := by
  cases d with
  | instr i => exact exec_next i s
  | refuse r => exact ⟨_, rfl⟩
  | unknownStatusCode => exact ⟨_, rfl⟩

end Sys2Proof.Machine
end

