-- ==== Sys2Proof/Laws/Agents.lean ====
section
/-! SUPPORT. The block's own agents do not read the line-up: with another line-up they do the same. -/

namespace Sys2Proof.Machine

/-- What a Harvest step can do (44_isr_sequencer R222): skip, harvest, or end the harvest of this event. -/
theorem State.isrHarvest_cases (c : Channel) (s : State) :
    (s.store.elig .input c = false ∧ s.isrHarvest c = { s with isr := IsrState.afterHarvest c }) ∨
    (s.store.elig .input c = true ∧ s.answer s.env.slotFree 0 = true ∧
      s.isrHarvest c =
        { s with
            latch := s.latchesAfterRead c, draws := s.draws + 1, isr := IsrState.afterHarvest c
            transport := { s.transport with
              ready := s.transport.ready ++ [s.portValue c], acquired := s.transport.acquired + 1 }
            events := s.events ++ [.bufAcquire (some s.transport.acquired), .portRead c (s.portValue c),
              .bufPut s.transport.acquired (s.portValue c), .bufReady s.transport.acquired] }) ∨
    (s.store.elig .input c = true ∧ s.answer s.env.slotFree 0 = false ∧
      s.isrHarvest c = { s with isr := .notify, draws := s.draws + 1, events := s.events ++ [.bufAcquire none, .overrun c] }) := by
  unfold State.isrHarvest
  cases he : s.store.elig .input c
  · exact .inl ⟨rfl, rfl⟩
  · cases ha : s.answer s.env.slotFree 0
    · exact .inr (.inr ⟨rfl, rfl, rfl⟩)
    · refine .inr (.inl ⟨rfl, rfl, ?_⟩)
      simp [State.portRead]

theorem State.isrHarvest_inbox (c : Channel) (s : State) (l : List Input) :
    ({ s with inbox := l } : State).isrHarvest c = { s.isrHarvest c with inbox := l } := by
  have he : ({ s with inbox := l } : State).store.elig .input c = s.store.elig .input c := rfl
  have ha : ({ s with inbox := l } : State).answer s.env.slotFree 0 = s.answer s.env.slotFree 0 := rfl
  rcases s.isrHarvest_cases c with ⟨h1, h2⟩ | ⟨h1, h2, h3⟩ | ⟨h1, h2, h3⟩
  · rw [h2, State.isrHarvest, he, h1]; rfl
  · rw [h3, State.isrHarvest, he, h1, if_pos rfl]
    rw [if_pos (ha.trans h2)]
    simp [State.portRead, State.portValue, State.latchesAfterRead, State.pin, State.latchVal, State.drawByte]
  · rw [h3, State.isrHarvest, he, h1, if_pos rfl]
    rw [if_neg (by rw [ha, h2]; exact Bool.false_ne_true)]

theorem State.isrNotify_inbox (s : State) (l : List Input) :
    ({ s with inbox := l } : State).isrNotify = { s.isrNotify with inbox := l } := by
  unfold State.isrNotify
  by_cases h : s.sigTarget = 0
  · rw [if_pos h, if_pos h]
  · rw [if_neg h, if_neg h]

theorem State.isrStep_inbox (s : State) (l : List Input) :
    ({ s with inbox := l } : State).isrStep = { s.isrStep with inbox := l } := by
  cases h : s.isr with
  | idle => simp only [State.isrStep, h]
  | ack => simp only [State.isrStep, h]; rfl
  | harvest c => simpa only [State.isrStep, h] using s.isrHarvest_inbox c l
  | notify => simpa only [State.isrStep, h] using s.isrNotify_inbox l
  | count => simp only [State.isrStep, h]; rfl
  | unassigned k => simp [State.isrStep, h, State.markFault]

theorem State.advanceBlock_inbox (cur : BlkCursor) (s : State) (l : List Input) :
    ({ s with inbox := l } : State).advanceBlock cur = { s.advanceBlock cur with inbox := l } := by
  unfold State.advanceBlock
  split <;> rfl

theorem transferStep_inbox (cur : BlkCursor) (s t : State) (l : List Input) (h : transferStep cur s = .next t) :
    transferStep cur { s with inbox := l } = .next { t with inbox := l } := by
  rcases transferStep_cases cur s with ⟨h1, h2⟩ | ⟨c, h1, h2, h3⟩ | ⟨c, h1, h2, h3⟩
  · rw [h2] at h
    cases h
    simp [transferStep, h1]
  · rw [h3] at h
    cases h
    have hx : hmemExists ({ s with inbox := l } : State).params (cur.addr.toNat + cur.k) = true := h2
    have ht : ({ s with inbox := l } : State).transferByte cur.op c (cur.addr.toNat + cur.k) =
        { s.transferByte cur.op c (cur.addr.toNat + cur.k) with inbox := l } := by cases cur.op <;> rfl
    simp only [transferStep, h1, hx, if_true]
    rw [ht, State.advanceBlock_inbox]
  · rw [h3] at h
    cases h

theorem State.finishWait_inbox (w : ReadWait) (r : BufAnswer) (s : State) (l : List Input) :
    ({ s with inbox := l } : State).finishWait w r = { s.finishWait w r with inbox := l } := by
  rcases s.finishWait_cases w r with ⟨code, rfl, hf⟩ | ⟨b, rfl, ha, hf⟩ | ⟨b, rfl, ha, hf⟩
  · rfl
  · rw [hf]
    exact if_pos ha
  · rw [hf]
    exact if_neg (by rw [ha]; exact Bool.false_ne_true)

theorem callStep_inbox (s t : State) (l : List Input) (h : callStep s = .next t) :
    callStep { s with inbox := l } = .next { t with inbox := l } := by
  obtain hs | hs := Bool.eq_false_or_eq_true s.stuck
  · rw [callStep_of_stuck hs] at h
    cases h
    exact callStep_of_stuck (s := { s with inbox := l }) hs
  · obtain hb | ⟨cur, hb⟩ := Option.eq_none_or_eq_some s.blk
    · obtain hw | ⟨⟨cap, addr, ans⟩, hw⟩ := Option.eq_none_or_eq_some s.rdWait
      · rw [callStep_of_free hb hw] at h
        cases h
        exact callStep_of_free (s := { s with inbox := l }) hb hw
      · cases ans with
        | none =>
          rw [callStep_of_waiting hb hw] at h
          cases h
          exact callStep_of_waiting (s := { s with inbox := l }) hb hw
        | some r =>
          rw [callStep_of_answer hs hb hw] at h
          cases h
          rw [callStep_of_answer (s := { s with inbox := l }) hs hb hw, State.finishWait_inbox]
    · rw [callStep_of_blk hs hb] at h
      exact (callStep_of_blk (s := { s with inbox := l }) hs hb).trans (transferStep_inbox cur s t l h)

/-- With another line-up the block's own agents do the same. -/
theorem ownStep_inbox (s t : State) (l : List Input) (h : ownStep s = .next t) :
    ownStep { s with inbox := l } = .next { t with inbox := l } := by
  rcases ownStep_cases s with ⟨hi, ho⟩ | ⟨hi, hl, hr, ho⟩ | ⟨hi, hr, ho⟩ <;> rw [ho] at h
  · cases h
    rw [ownStep_of_isr (s := { s with inbox := l }) hi, State.isrStep_inbox]
  · cases h
    exact ownStep_of_request (s := { s with inbox := l }) hi hl hr
  · rw [ownStep_of_call (s := { s with inbox := l }) hi hr]
    exact callStep_inbox s t l h

end Sys2Proof.Machine
end

