-- ==== Sys2Proof/Laws/Memory.lean ====
section
/-! SUPPORT. The host buffer memory: a byte read is the byte written, and every operation keeps the canonical form. -/

namespace Sys2Proof.Machine

/-- Every address listed is above a bound. -/
def Above (b : Nat) (m : Memory) : Prop := ∀ x ∈ m, b < x.1

theorem Memory.wf_cons {k : Nat} {v : Byte} {m : Memory} :
    Memory.wf ((k, v) :: m) = true ↔ v ≠ 0 ∧ Above k m ∧ Memory.wf m = true := by
  induction m generalizing k v with
  | nil => simp [Memory.wf, Above]
  | cons x m ih =>
    obtain ⟨k', v'⟩ := x
    rw [Memory.wf]
    simp only [Bool.and_eq_true, bne_iff_ne, ne_eq, decide_eq_true_eq]
    constructor
    · rintro ⟨⟨hv, hk⟩, hm⟩
      refine ⟨hv, ?_, hm⟩
      intro y hy
      rcases List.mem_cons.mp hy with rfl | hy
      · exact hk
      · exact hk.trans ((ih.mp hm).2.1 y hy)
    · rintro ⟨hv, ha, hm⟩
      exact ⟨⟨hv, ha _ (List.mem_cons_self ..)⟩, hm⟩

theorem Above.weaken {a b : Nat} {m : Memory} (h : Above b m) (hab : a ≤ b) : Above a m :=
  fun x hx => lt_of_le_of_lt hab (h x hx)

/-- An address below everything listed is unlisted. -/
theorem memByte_of_above {m : Memory} {a : Nat} (h : Above a m) : memByte m a = 0 := by
  induction m with
  | nil => rfl
  | cons x m ih =>
    obtain ⟨k, v⟩ := x
    have hk : a < k := h _ (List.mem_cons_self ..)
    rw [memByte, if_neg (by omega)]
    exact ih fun y hy => h y (List.mem_cons_of_mem _ hy)

theorem memByte_memPut_self (m : Memory) (a : Nat) (v : Byte) : memByte (memPut m a v) a = v := by
  induction m with
  | nil => simp [memPut, memByte]
  | cons x m ih =>
    obtain ⟨k, w⟩ := x
    rw [memPut]
    split
    · simp [memByte]
    · split
      · simp [memByte]
      · rw [memByte, if_neg (by omega)]
        exact ih

theorem memByte_memPut_ne {a b : Nat} (h : b ≠ a) (m : Memory) (v : Byte) :
    memByte (memPut m a v) b = memByte m b := by
  induction m with
  | nil => simp [memPut, memByte, Ne.symm h]
  | cons x m ih =>
    obtain ⟨k, w⟩ := x
    rw [memPut]
    split
    · simp [memByte, Ne.symm h]
    · split
      · next hk => subst hk; simp [memByte, Ne.symm h]
      · simp only [memByte]
        rw [ih]

theorem above_memPut {b a : Nat} {m : Memory} {v : Byte} (h : Above b m) (hab : b < a) : Above b (memPut m a v) := by
  induction m with
  | nil => simpa [memPut, Above] using hab
  | cons x m ih =>
    obtain ⟨k, w⟩ := x
    have hk : b < k := h _ (List.mem_cons_self ..)
    have hm : Above b m := fun y hy => h y (List.mem_cons_of_mem _ hy)
    rw [memPut]
    split
    · exact fun y hy => (List.mem_cons.mp hy).elim (fun e => e ▸ hab) (h y)
    · split
      · exact fun y hy => (List.mem_cons.mp hy).elim (fun e => e ▸ hab) (hm y)
      · exact fun y hy => (List.mem_cons.mp hy).elim (fun e => e ▸ hk) (ih hm y)

theorem memPut_wf {m : Memory} (h : Memory.wf m = true) (a : Nat) {v : Byte} (hv : v ≠ 0) :
    Memory.wf (memPut m a v) = true := by
  induction m with
  | nil => simpa [memPut, Memory.wf] using hv
  | cons x m ih =>
    obtain ⟨k, w⟩ := x
    obtain ⟨hw, ha, hm⟩ := Memory.wf_cons.mp h
    rw [memPut]
    split
    · next hak =>
      refine Memory.wf_cons.mpr ⟨hv, fun y hy => ?_, h⟩
      rcases List.mem_cons.mp hy with rfl | hy
      · exact hak
      · exact hak.trans (ha y hy)
    · split
      · next _ hk =>
        subst hk
        exact Memory.wf_cons.mpr ⟨hv, ha, hm⟩
      · exact Memory.wf_cons.mpr ⟨hw, above_memPut ha (by omega), ih hm⟩

theorem memByte_memDrop_ne {a b : Nat} (h : b ≠ a) (m : Memory) : memByte (memDrop m a) b = memByte m b := by
  induction m with
  | nil => rfl
  | cons x m ih =>
    obtain ⟨k, w⟩ := x
    rw [memDrop]
    split
    · next hk => subst hk; simp [memByte, Ne.symm h]
    · simp only [memByte]
      rw [ih]

theorem memByte_memDrop_self {m : Memory} (h : Memory.wf m = true) (a : Nat) : memByte (memDrop m a) a = 0 := by
  induction m with
  | nil => rfl
  | cons x m ih =>
    obtain ⟨k, w⟩ := x
    obtain ⟨-, ha, hm⟩ := Memory.wf_cons.mp h
    rw [memDrop]
    split
    · next hk => subst hk; exact memByte_of_above ha
    · next hk =>
      rw [memByte, if_neg hk]
      exact ih hm

theorem above_memDrop {b a : Nat} {m : Memory} (h : Above b m) : Above b (memDrop m a) := by
  induction m with
  | nil => exact h
  | cons x m ih =>
    obtain ⟨k, w⟩ := x
    have hm : Above b m := fun y hy => h y (List.mem_cons_of_mem _ hy)
    rw [memDrop]
    split
    · exact hm
    · exact fun y hy => (List.mem_cons.mp hy).elim (fun e => e ▸ h _ (List.mem_cons_self ..)) (ih hm y)

theorem memDrop_wf {m : Memory} (h : Memory.wf m = true) (a : Nat) : Memory.wf (memDrop m a) = true := by
  induction m with
  | nil => rfl
  | cons x m ih =>
    obtain ⟨k, w⟩ := x
    obtain ⟨hw, ha, hm⟩ := Memory.wf_cons.mp h
    rw [memDrop]
    split
    · exact hm
    · exact Memory.wf_cons.mpr ⟨hw, above_memDrop ha, ih hm⟩

/-- A store keeps the canonical form. -/
theorem memSet_wf {m : Memory} (h : Memory.wf m = true) (a : Nat) (v : Byte) : Memory.wf (memSet m a v) = true := by
  unfold memSet
  split
  · exact memDrop_wf h a
  · next hv => exact memPut_wf h a hv

/-- A byte read at the address of a store is the byte stored (20_memory R80). -/
theorem memByte_memSet_self {m : Memory} (h : Memory.wf m = true) (a : Nat) (v : Byte) : memByte (memSet m a v) a = v := by
  unfold memSet
  split
  · next hv => rw [hv]; exact memByte_memDrop_self h a
  · exact memByte_memPut_self m a v

/-- A store leaves every other byte alone (20_memory R65). -/
theorem memByte_memSet_ne {a b : Nat} (h : b ≠ a) (m : Memory) (v : Byte) : memByte (memSet m a v) b = memByte m b := by
  unfold memSet
  split
  · exact memByte_memDrop_ne h m
  · exact memByte_memPut_ne h m v

/-- Stores at rising addresses keep the canonical form. -/
theorem memSetList_wf {m : Memory} (h : Memory.wf m = true) (a : Nat) (l : List Byte) :
    Memory.wf (memSetList m a l) = true := by
  induction l generalizing m a with
  | nil => exact h
  | cons b l ih => exact ih (memSet_wf h a b) (a + 1)

/-- Stores at rising addresses leave every byte outside their range alone. -/
theorem memByte_memSetList_outside {a b : Nat} {l : List Byte} (h : b < a ∨ a + l.length ≤ b) (m : Memory) :
    memByte (memSetList m a l) b = memByte m b := by
  induction l generalizing m a with
  | nil => rfl
  | cons x l ih =>
    simp only [List.length_cons] at h
    rw [memSetList, ih (by omega), memByte_memSet_ne (by omega)]

/-- Byte `k` of a run of stores reads back. -/
theorem memByte_memSetList_inside {m : Memory} (h : Memory.wf m = true) (a : Nat) {l : List Byte} {k : Nat} {v : Byte}
    (hk : l[k]? = some v) : memByte (memSetList m a l) (a + k) = v := by
  induction l generalizing m a k with
  | nil => simp at hk
  | cons x l ih =>
    rw [memSetList]
    cases k with
    | zero =>
      simp only [List.getElem?_cons_zero, Option.some.injEq] at hk
      subst hk
      rw [memByte_memSetList_outside (by omega)]
      exact memByte_memSet_self h a x
    | succ k =>
      simp only [List.getElem?_cons_succ] at hk
      have := ih (memSet_wf h a x) (a + 1) hk
      rwa [show a + 1 + k = a + (k + 1) by omega] at this

/-- The memory before the first INIT has the canonical form. -/
theorem reset_hmem_wf : Memory.wf State.reset.hmem = true := rfl

end Sys2Proof.Machine
end

