-- ==== Sys2Proof/Laws/PerInstr.lean ====
section
/-! SUPPORT. For each command: where its word carries the opcode and the channel (30_encoding R91, R95). -/

namespace Sys2Proof.Laws.Encoding

/-- The word has the reserved field 0, the command's opcode in bits 7:0 and its channel in bits 9:8. -/
abbrev Fields (i : Instr) : Prop :=
  rsvField (encode i) = 0 ∧ opField (encode i) = i.opcode ∧ chField (encode i) = i.channel?.getD 0

/-- A well-formed command's word carries its fields where R91 says. -/
def Statement (i : Instr) : Prop := i.wellFormed = true → Fields i

/-- A channel that fits its field is one of four. -/
theorem channel_cases {P : Nat → Prop} (h0 : P 0) (h1 : P 1) (h2 : P 2) (h3 : P 3) {ch : Nat} (h : channelFits ch = true) :
    P ch := by
  have h : ch < 4 := of_decide_eq_true h
  interval_cases ch <;> assumption

theorem init : Statement .init := by unfold Statement; decide

theorem exit : Statement .exit := by unfold Statement; decide

theorem read (ch : Nat) : Statement (.read ch) :=
  channel_cases (P := fun n => Fields (.read n)) (by decide) (by decide) (by decide) (by decide)

theorem write (ch : Nat) : Statement (.write ch) :=
  channel_cases (P := fun n => Fields (.write n)) (by decide) (by decide) (by decide) (by decide)

theorem blkread : Statement .blkread := by unfold Statement; decide

theorem blkwrite : Statement .blkwrite := by unfold Statement; decide

theorem infoNspaces : Statement .infoNspaces := by unfold Statement; decide

theorem infoSpacewidth : Statement .infoSpacewidth := by unfold Statement; decide

theorem infoIrqreq : Statement .infoIrqreq := by unfold Statement; decide

theorem serviceIrq : Statement .serviceIrq := by unfold Statement; decide

theorem getDebugLevel : Statement .getDebugLevel := by unfold Statement; decide

theorem setDebugLevel : Statement .setDebugLevel := by unfold Statement; decide

theorem getIrqEnable : Statement .getIrqEnable := by unfold Statement; decide

theorem setIrqEnable : Statement .setIrqEnable := by unfold Statement; decide

theorem getIrqCount : Statement .getIrqCount := by unfold Statement; decide

theorem setIrqCount : Statement .setIrqCount := by unfold Statement; decide

theorem getChDir (ch : Nat) : Statement (.getChDir ch) :=
  channel_cases (P := fun n => Fields (.getChDir n)) (by decide) (by decide) (by decide) (by decide)

theorem setChDir (ch : Nat) : Statement (.setChDir ch) :=
  channel_cases (P := fun n => Fields (.setChDir n)) (by decide) (by decide) (by decide) (by decide)

theorem getChLen (ch : Nat) : Statement (.getChLen ch) :=
  channel_cases (P := fun n => Fields (.getChLen n)) (by decide) (by decide) (by decide) (by decide)

theorem getChType (ch : Nat) : Statement (.getChType ch) :=
  channel_cases (P := fun n => Fields (.getChType n)) (by decide) (by decide) (by decide) (by decide)

theorem getTerm (ch : Nat) : Statement (.getTerm ch) :=
  channel_cases (P := fun n => Fields (.getTerm n)) (by decide) (by decide) (by decide) (by decide)

theorem setTerm (ch : Nat) : Statement (.setTerm ch) :=
  channel_cases (P := fun n => Fields (.setTerm n)) (by decide) (by decide) (by decide) (by decide)

theorem getEdge : Statement .getEdge := by unfold Statement; decide

theorem setEdge : Statement .setEdge := by unfold Statement; decide

theorem getStorage : Statement .getStorage := by unfold Statement; decide

theorem setStorage : Statement .setStorage := by unfold Statement; decide

theorem getSig : Statement .getSig := by unfold Statement; decide

theorem setSig : Statement .setSig := by unfold Statement; decide

theorem setSigclr : Statement .setSigclr := by unfold Statement; decide

theorem getBufen (ch : Nat) : Statement (.getBufen ch) :=
  channel_cases (P := fun n => Fields (.getBufen n)) (by decide) (by decide) (by decide) (by decide)

theorem setBufen (ch : Nat) : Statement (.setBufen ch) :=
  channel_cases (P := fun n => Fields (.setBufen n)) (by decide) (by decide) (by decide) (by decide)

theorem getRdSize : Statement .getRdSize := by unfold Statement; decide

theorem getWrSize : Statement .getWrSize := by unfold Statement; decide

end Sys2Proof.Laws.Encoding
end

