-- ==== Sys2Proof/Machine/Asm.lean ====
section
/-! DEFINITION. The assembler lines of a test program (30_encoding R103): a command with its operands, or an action of the
environment; the input each line presents; and the reader of its written form. -/

namespace Sys2Proof.Machine

/-- One line (R103). -/
inductive AsmLine
  /-- `MNEMONIC [ch] [, val] [, @addr]`, or `INIT` with its fields -/
  | command (i : Instr) (val addr : Word) (cfg : Cfg)
  /-- `ENV.EDGE` -/
  | envEdge
  /-- `ENV.PINS c = b` -/
  | envPins (c : Channel) (b : Byte)
  /-- `ENV.SERVICE` -/
  | envService
  deriving DecidableEq, Repr

/-- `CMD = (ch << 8) | op` (R103); a channel of 4 or more runs into the reserved bits (90_conflicts C4). A channel of 2^24 or more,
which no 32-bit word can hold and no written line has, is taken modulo 2^24: the model's choice (log 28). -/
def Instr.asmWord (i : Instr) : Word := BitVec.ofNat 32 (256 * i.channel?.getD 0 + i.opcode.toNat)

/-- What a line presents: a word on the command port with its operands, or the environment's action (R103). `ENV.SERVICE` is the
presentation alone, as R103 has it; that the ISR then runs to Idle, as 95_test_vectors adds, is left to the steps that follow, so
that an environment line may move in between: the model's choice between the two (log 28). -/
def AsmLine.input : AsmLine → Input
  | .command i val addr cfg => .command { cmd := Instr.asmWord i, val := val, addr := addr, cfg := cfg }
  | .envEdge => .env .edge
  | .envPins c b => .env (.pins c (some b))
  | .envService => .service (Instr.asmWord .serviceIrq)

/-- A test program lined up. -/
def assemble (l : List AsmLine) : List Input := l.map AsmLine.input

/-! ## Reading a written line -/

/-- The pieces of a line. -/
inductive Tok
  | word (w : List Char)
  | comma
  | eq
  | addrMark
  | openBrace
  | closeBrace
  deriving DecidableEq, Repr

/-- The token a separating character stands for: `none` for a space. -/
def separator? (c : Char) : Option (Option Tok) :=
  if c = ' ' then some none
  else if c = ',' then some (some .comma)
  else if c = '=' then some (some .eq)
  else if c = '@' then some (some .addrMark)
  else if c = Char.ofNat 123 then some (some .openBrace)
  else if c = Char.ofNat 125 then some (some .closeBrace)
  else none

/-- End the word being read. -/
def endWord (w : List Char) (l : List Tok) : List Tok := if w = [] then l else .word w :: l

/-- The tokens of a line, read from its end: the word being read and the tokens after it. -/
def lex (l : List Char) : List Char × List Tok :=
  l.foldr (fun c acc =>
    match separator? c with
    | none => (c :: acc.1, acc.2)
    | some none => ([], endWord acc.1 acc.2)
    | some (some t) => ([], t :: endWord acc.1 acc.2)) ([], [])

/-- The value of a digit. -/
def digit? (base : Nat) (c : Char) : Option Nat :=
  let n := c.toNat
  let d := if 48 ≤ n ∧ n ≤ 57 then n - 48 else if 97 ≤ n ∧ n ≤ 102 then n - 87 else if 65 ≤ n ∧ n ≤ 70 then n - 55 else base
  if d < base then some d else none

def digits (base : Nat) : Nat → List Char → Option Nat
  | acc, [] => some acc
  | acc, c :: l =>
    match digit? base c with
    | some d => digits base (acc * base + d) l
    | none => none

/-- A number, hexadecimal with `0x` or decimal (R103). -/
def number? : List Char → Option Nat
  | [] => none
  | '0' :: 'x' :: [] => none
  | '0' :: 'x' :: c :: l => digits 16 0 (c :: l)
  | c :: l => digits 10 0 (c :: l)

/-- A number that fits a 32-bit register. -/
def word32? (n : Nat) : Option Word := if n < 4294967296 then some (BitVec.ofNat 32 n) else none

/-- A channel whose word fits 32 bits: one of 2^24 or more is no line, the model's choice (log 28). -/
def asmChannel? (n : Nat) : Option Nat := if n < 16777216 then some n else none

/-- Operands separated by commas, the address last with its mark. -/
def operands? : List Tok → Option (List Nat × Option Nat)
  | [] => some ([], none)
  | [.word w] => (number? w).map fun n => ([n], none)
  | [.addrMark, .word w] => (number? w).map fun n => ([], some n)
  | .word w :: .comma :: t :: l =>
    match number? w, operands? (t :: l) with
    | some n, some (m, a) => some (n :: m, a)
    | _, _ => none
  | _ => none

/-- The operands a mnemonic takes (R103). -/
inductive AsmForm
  | plain (i : Instr)
  | chan (i : Nat → Instr)
  | value (i : Instr)
  | optValue (i : Instr)
  | chanValue (i : Nat → Instr)
  | valueAddr (i : Instr)

/-- Operation-class mnemonics but for INIT (R93, R103). -/
def operationForms : List (String × AsmForm) :=
  [("EXIT", .plain .exit), ("READ", .chan .read), ("WRITE", .chanValue .write), ("BLKREAD", .valueAddr .blkread),
   ("BLKWRITE", .valueAddr .blkwrite), ("INFO.NSPACES", .plain .infoNspaces), ("INFO.SPACEWIDTH", .value .infoSpacewidth),
   ("INFO.IRQREQ", .plain .infoIrqreq)]

/-- GET mnemonics (R94, R103). A direction R94 marks unsupported, such as GET.SIGCLR, is no mnemonic: the model's choice (log 28). -/
def getForms : List (String × AsmForm) :=
  [("GET.DEBUG_LEVEL", .plain .getDebugLevel), ("GET.IRQ_ENABLE", .plain .getIrqEnable),
   ("GET.IRQ_COUNT", .plain .getIrqCount), ("GET.CH_DIR", .chan .getChDir), ("GET.CH_LEN", .chan .getChLen),
   ("GET.CH_TYPE", .chan .getChType), ("GET.TERM", .chan .getTerm), ("GET.EDGE", .plain .getEdge),
   ("GET.STORAGE", .plain .getStorage), ("GET.SIG", .plain .getSig), ("GET.BUFEN", .chan .getBufen),
   ("GET.RD_SIZE", .plain .getRdSize), ("GET.WR_SIZE", .plain .getWrSize)]

/-- SET mnemonics (R94, R103); SET.SIGCLR ignores its value (45_notification R252, R104). A direction R94 marks unsupported, such as
SET.CH_LEN, is no mnemonic: the model's choice (log 28). -/
def setForms : List (String × AsmForm) :=
  [("SET.DEBUG_LEVEL", .value .setDebugLevel), ("SET.IRQ_ENABLE", .value .setIrqEnable),
   ("SET.IRQ_COUNT", .value .setIrqCount), ("SET.CH_DIR", .chanValue .setChDir), ("SET.TERM", .chanValue .setTerm),
   ("SET.EDGE", .value .setEdge), ("SET.STORAGE", .value .setStorage), ("SET.SIG", .value .setSig),
   ("SET.SIGCLR", .optValue .setSigclr), ("SET.BUFEN", .chanValue .setBufen)]

/-- The form of a mnemonic. -/
def formOf? (m : List Char) : Option AsmForm :=
  ((operationForms ++ getForms ++ setForms).find? fun r => r.1.toList = m).map (·.2)

/-- A command line from its form and its operands. Where R103 writes `[ch]`, a code that takes a channel has to have it and a
device-wide code has none, so that `GET.IRQ_ENABLE 3` is no line; VAL and ADDR that a line does not write are 0 and its CFG is empty: the model's choices
(log 28). -/
def AsmForm.line? : AsmForm → List Nat × Option Nat → Option AsmLine
  | .plain i, ([], none) => some (.command i 0 0 .empty)
  | .chan i, ([c], none) => (asmChannel? c).map fun c => .command (i c) 0 0 .empty
  | .value i, ([v], none) => (word32? v).map fun v => .command i v 0 .empty
  | .optValue i, ([], none) => some (.command i 0 0 .empty)
  | .optValue i, ([v], none) => (word32? v).map fun v => .command i v 0 .empty
  | .chanValue i, ([c, v], none) =>
    match asmChannel? c, word32? v with
    | some c, some v => some (.command (i c) v 0 .empty)
    | _, _ => none
  | .valueAddr i, ([v], some a) =>
    match word32? v, word32? a with
    | some v, some a => some (.command i v a .empty)
    | _, _ => none
  | _, _ => none

/-- The channel of a field written `base[c]`. -/
def fieldChannel? (base : String) (name : List Char) : Option Channel :=
  Channel.all.find? fun c => base.toList ++ ['[', Char.ofNat (48 + c.index), ']'] = name

/-- One present INIT field (R97). -/
def Cfg.withField? (cfg : Cfg) (name : List Char) (v : Word) : Option Cfg :=
  if name = "idCheck".toList then some { cfg with idCheck := some v }
  else if name = "edge".toList then some { cfg with edge := some v }
  else if name = "mode".toList then some { cfg with mode := some v }
  else if name = "tsize".toList then some { cfg with tsize := some v }
  else if name = "tmode".toList then some { cfg with tmode := some v }
  else if name = "ttimeout".toList then some { cfg with ttimeout := some v }
  else if name = "thigh".toList then some { cfg with thigh := some v }
  else
    match fieldChannel? "dir" name, fieldChannel? "term" name, fieldChannel? "bufEn" name with
    | some c, _, _ => some { cfg with dir := cfg.dir.set c (some v) }
    | none, some c, _ => some { cfg with term := cfg.term.set c (some v) }
    | none, none, some c => some { cfg with bufEn := cfg.bufEn.set c (some v) }
    | none, none, none => none

/-- `field=value` pairs separated by commas, up to the closing brace. -/
def fields? : Cfg → List Tok → Option Cfg
  | cfg, [.closeBrace] => some cfg
  | cfg, .word n :: .eq :: .word v :: l =>
    match ((number? v).bind word32?).bind (cfg.withField? n), l with
    | some cfg, [.closeBrace] => some cfg
    | some cfg, .comma :: .word n :: l => fields? cfg (.word n :: l)
    | _, _ => none
  | _, _ => none

/-- A line from its tokens (R103). -/
def lineOfToks? : List Tok → Option AsmLine
  | .word m :: l =>
    if m = "INIT".toList then
      match l with
      | .openBrace :: l => (fields? .empty l).map fun cfg => .command .init 0 0 cfg
      | _ => none
    else if m = "ENV.EDGE".toList then if l = [] then some .envEdge else none
    else if m = "ENV.SERVICE".toList then if l = [] then some .envService else none
    else if m = "ENV.PINS".toList then
      match l with
      | [.word c, .eq, .word b] =>
        match (number? c).bind Channel.ofNat?, number? b with
        | some c, some b => if b < 256 then some (.envPins c (BitVec.ofNat 8 b)) else none
        | _, _ => none
      | _ => none
    else
      match formOf? m, operands? l with
      | some f, some o => f.line? o
      | _, _ => none
  | _ => none

/-- A line from its text (R103). -/
def parseLine (s : String) : Option AsmLine :=
  let r := lex s.toList
  lineOfToks? (endWord r.1 r.2)

end Sys2Proof.Machine
end

