-- ==== Sys2Proof/Tests/Slice0.lean ====
section
/-! SUPPORT. The model's own tests: one step each, the expected results from the tables and vectors of spec/, and for every
obligation with hypotheses a state and operands that meet them. -/

namespace Sys2Proof.Tests

open Sys2Proof Sys2Proof.Machine Sys2Proof.Claims

/-- The next state of an outcome, if it is one. -/
def after (o : Host.Outcome State Fault Refusal) : Option State :=
  match o with
  | .next t => some t
  | .fault _ => none
  | .refused _ => none

/-- A step that has a next state. -/
def steps (o : Host.Outcome State Fault Refusal) : Bool := (after o).isSome

/-- ST0 of 95_test_vectors.md with the pins of its section 2.4 and every answer of the environment fixed to success. -/
def st0 : State :=
  { State.reset with
      life := .active
      store := { dir := .const .input, term := .const .passive, bufEn := .const true, edge := .falling, mode := 0, idCheck := true
                 readSize := 4, writeSize := 0 }
      env := { pins := { c0 := some 0x10, c1 := some 0x11, c2 := some 0x12, c3 := some 0x13 }, idOk := some true
               allocOk := some true, transportOk := some true, sigOk := some true, slotFree := some true } }

/-- Operands on the command port. -/
def withVal (v : Word) (s : State) : State := { s with port := { s.port with val := v } }

def withAddr (a : Word) (s : State) : State := { s with port := { s.port with addr := a } }

def withCfg (c : Cfg) (s : State) : State := { s with port := { s.port with cfg := c } }

def withMode (m : BitVec 3) (s : State) : State := { s with store := { s.store with mode := m } }

/-- One input lined up. -/
def lined (x : Input) (s : State) : State := { s with inbox := [x] }

def word (w : Word) : CommandPort := { State.reset.port with cmd := w }

/-- Channels 2 and 3 Output, as after S7's configuration. -/
def st22 : State :=
  { st0 with store := { st0.store with dir := { c0 := .input, c1 := .input, c2 := .output, c3 := .output }
                                       readSize := 2, writeSize := 2 }
             outReg := { c0 := none, c1 := none, c2 := some 0, c3 := some 0 } }

/-- An uninitialised instance whose environment answers success. -/
def cold : State := { State.reset with env := st0.env }

/-! ## WellFormed -/

theorem test_wf_channel_too_large : (Instr.read 4).wellFormed = false ∧ (Instr.setBufen 4).wellFormed = false := by decide

theorem test_wf_channel_fits : (Instr.read 3).wellFormed = true ∧ Instr.init.wellFormed = true := by decide

/-! ## Decoding: words written out bit by bit from R91, R93, R94: reserved (22), channel (2), opcode (8) -/

theorem test_decode_operation :
    decode .command 0b0000000000000000000000_00_00000001 = .instr .init ∧
    decode .command 0b0000000000000000000000_01_00000010 = .instr .exit ∧
    decode .command 0b0000000000000000000000_10_00000011 = .instr (.read 2) ∧
    decode .command 0b0000000000000000000000_11_00000100 = .instr (.write 3) ∧
    decode .command 0b0000000000000000000000_00_00000101 = .instr .blkread ∧
    decode .command 0b0000000000000000000000_00_00000110 = .instr .blkwrite ∧
    decode .command 0b0000000000000000000000_00_00001000 = .instr .infoNspaces ∧
    decode .command 0b0000000000000000000000_00_00001001 = .instr .infoSpacewidth ∧
    decode .command 0b0000000000000000000000_00_00001010 = .instr .infoIrqreq ∧
    decode .interrupt 0b0000000000000000000000_00_00001111 = .instr .serviceIrq := by decide

theorem test_decode_get :
    decode .command 0b0000000000000000000000_00_10000000 = .instr .getDebugLevel ∧
    decode .command 0b0000000000000000000000_11_10000001 = .instr .getIrqEnable ∧
    decode .command 0b0000000000000000000000_00_10000010 = .instr .getIrqCount ∧
    decode .command 0b0000000000000000000000_01_10000011 = .instr (.getChDir 1) ∧
    decode .command 0b0000000000000000000000_10_10000100 = .instr (.getChLen 2) ∧
    decode .command 0b0000000000000000000000_11_10000101 = .instr (.getChType 3) ∧
    decode .command 0b0000000000000000000000_01_10010000 = .instr (.getTerm 1) ∧
    decode .command 0b0000000000000000000000_00_10010001 = .instr .getEdge ∧
    decode .command 0b0000000000000000000000_00_10010010 = .instr .getStorage ∧
    decode .command 0b0000000000000000000000_00_10010011 = .instr .getSig ∧
    decode .command 0b0000000000000000000000_10_10010101 = .instr (.getBufen 2) ∧
    decode .command 0b0000000000000000000000_00_10010110 = .instr .getRdSize ∧
    decode .command 0b0000000000000000000000_00_10010111 = .instr .getWrSize := by decide

theorem test_decode_set :
    decode .command 0b0000000000000000000000_00_11000000 = .instr .setDebugLevel ∧
    decode .command 0b0000000000000000000000_00_11000001 = .instr .setIrqEnable ∧
    decode .command 0b0000000000000000000000_00_11000010 = .instr .setIrqCount ∧
    decode .command 0b0000000000000000000000_10_11000011 = .instr (.setChDir 2) ∧
    decode .command 0b0000000000000000000000_11_11010000 = .instr (.setTerm 3) ∧
    decode .command 0b0000000000000000000000_00_11010001 = .instr .setEdge ∧
    decode .command 0b0000000000000000000000_00_11010010 = .instr .setStorage ∧
    decode .command 0b0000000000000000000000_00_11010011 = .instr .setSig ∧
    decode .command 0b0000000000000000000000_00_11010100 = .instr .setSigclr ∧
    decode .command 0b0000000000000000000000_01_11010101 = .instr (.setBufen 1) := by decide

/-- V30-1 to V30-8. -/
theorem test_decode_refused :
    decode .command 0x00000403 = .refuse .reservedBits ∧ decode .command 0x00000007 = .refuse .reservedOpcode ∧
    decode .command 0x0000000F = .refuse .serviceOnCommandPort ∧ decode .interrupt 0x00000003 = .refuse .notAnInterruptEntry ∧
    decode .command 0x00000086 = .unknownStatusCode ∧ decode .command 0x000000C4 = .unknownStatusCode ∧
    decode .command 0x00000094 = .unknownStatusCode ∧ decode .command 0x000000FF = .unknownStatusCode := by decide

/-- R94, R99: the sizes and the length and type have no setter. -/
theorem test_decode_no_setter :
    decode .command 0x000000C5 = .unknownStatusCode ∧ decode .command 0x000000D6 = .unknownStatusCode ∧
    decode .command 0x000000D7 = .unknownStatusCode := by decide

/-- The channel field of the table word reaches the instruction; the interrupt entry is found on its own port. -/
theorem test_table_word :
    decodeTableWord 32 0x303 = some (.read 3) ∧ decodeTableWord 32 0x0F = some .serviceIrq ∧ decodeTableWord 32 0x07 = none := by
  decide

/-! ## The first step after reset runs the placed word -/

theorem test_place_init : steps (step (State.reset.withFetchWord 32 0x01)) = true := rfl

theorem test_place_read :
    step (State.reset.withFetchWord 32 0x203) =
      exec (.read 2) { State.reset with life := .active, port := word 0x203 } := rfl

theorem test_place_service :
    (after (step (State.reset.withFetchWord 32 0x0F))).map (·.isr) = some .ack := by decide

theorem test_place_setters :
    ([0xC0, 0xC1, 0xC2, 0xC3, 0xD0, 0xD1, 0xD2, 0xD5].map fun w =>
      (after (step (State.reset.withFetchWord 32 w))).map (·.resp.status)) =
      [some 0, some 0, some 0, some 0, some 0, some 0, some 0, some 0] := by decide

/-- One line of R103's assembler: `READ 1` presents the word 0x103. -/
theorem test_assemble :
    assemble [.command (.read 1) 0 0 .empty, .envPins .ch1 0x5A, .envService] =
      [.command (word 0x103), .env (.pins .ch1 (some 0x5A)), .service 0x0F] := by decide

/-- R103's example, written: `SET.CH_DIR 2, 1` is CMD 0x000002C3 with VAL 1; and the other forms of a line. -/
theorem test_parse :
    (parseLine "SET.CH_DIR 2, 1").map AsmLine.input = some (.command { word 0x2C3 with val := 1 }) ∧
    (parseLine "BLKREAD 4, @0x100").map AsmLine.input = some (.command { word 0x05 with val := 4, addr := 0x100 }) ∧
    (parseLine "ENV.PINS 0 = 0xA1").map AsmLine.input = some (.env (.pins .ch0 (some 0xA1))) ∧
    (parseLine "READ 4").map AsmLine.input = some (.command (word 0x403)) ∧ parseLine "READ" = none := by decide

/-- R103, log 28: the widest channel whose word fits 32 bits is a line, the next is none. -/
theorem test_parse_wide_channel :
    (parseLine "READ 16777215").map AsmLine.input = some (.command (word 0xFFFFFF03)) ∧
    parseLine "READ 16777216" = none ∧ parseLine "WRITE 16777216, 1" = none := by decide

/-- Log 28: an unsupported direction, a device-wide code with a channel, and a channel code without one are no lines; the words of
V30-6, V30-7 and V30-12 are presented as words. -/
theorem test_parse_unlisted :
    parseLine "SET.CH_LEN 0, 1" = none ∧ parseLine "GET.SIGCLR" = none ∧ parseLine "GET.IRQ_ENABLE 3" = none ∧
    parseLine "SET.EDGE 0, 1" = none ∧ parseLine "GET.CH_DIR" = none ∧
    (after (step (lined (.command (word 0xC4)) st0))).map (·.resp.status) = some 8 ∧
    (after (step (lined (.command (word 0x94)) st0))).map (·.resp.status) = some 8 ∧
    (after (step (lined (.command (word 0x381)) { st0 with irqEnable := true }))).map (·.resp.res) = some 1 := by decide

/-- P1's second line: `INIT` with `dir[2]=1, dir[3]=1, mode=5` in braces. -/
theorem test_parse_init :
    (parseLine (String.ofList ("INIT ".toList ++ [Char.ofNat 123] ++ "dir[2]=1, dir[3]=1, mode=5".toList ++ [Char.ofNat 125]))) =
      some (.command .init 0 0 { Cfg.empty with
        mode := some 5, dir := { c0 := none, c1 := none, c2 := some 1, c3 := some 1 } }) := by decide

/-! ## Configuration store (spec vectors of section 2.2) -/

/-- V40-1. -/
theorem test_set_ch_dir :
    (after (exec (.setChDir 2) (withVal 1 st0))).map (fun t =>
      (t.store.dir.c2, t.store.readSize, t.store.writeSize, t.latch.c2, t.events)) =
      some (.output, 3, 1, none, [.ctrlWrite (.dir .ch2 .output), .response 0 0 0]) := by decide

/-- V40-3: the latch survives a write of the same direction. -/
theorem test_set_ch_dir_same :
    (after (exec (.setChDir 0) (withVal 0 { st0 with latch := { st0.latch with c0 := some 0x12 } }))).map (fun t =>
      (t.latch.c0, t.events.length)) = some (some 0x12, 2) := by decide

/-- R123's example. -/
theorem test_get_ch_dir : (after (exec (.getChDir 2) st22)).map (·.resp.res) = some 1 := by decide

/-- V40-5. -/
theorem test_set_term :
    (after (exec (.setTerm 3) (withVal 1 st0))).map (fun t => (t.store.term.c3, t.resp.status)) = some (.active, 0) := by decide

/-- V40-4. -/
theorem test_set_term_illegal :
    (after (exec (.setTerm 3) (withVal 0xFFFFFFFF st0))).map (fun t => (t.store, t.resp.status)) = some (st0.store, 1) := by decide

theorem test_get_term :
    (after (exec (.getTerm 1) { st0 with store := { st0.store with term := .const .active } })).map (·.resp.res) = some 1 := by
  decide

/-- V40-7: no control write. -/
theorem test_set_bufen :
    (after (exec (.setBufen 0) (withVal 0 st0))).map (fun t => (t.store.readSize, t.events)) =
      some (3, [.response 0 0 0]) := by decide

theorem test_get_bufen : (after (exec (.getBufen 3) st0)).map (·.resp.res) = some 1 := by decide

/-- V40-9. -/
theorem test_set_edge :
    (after (exec .setEdge (withVal 1 st0))).map (fun t => (t.store.edge, t.events)) =
      some (.rising, [.ctrlWrite (.edge .rising), .response 0 0 0]) := by decide

theorem test_get_edge :
    (after (exec .getEdge { st0 with store := { st0.store with edge := .rising } })).map (·.resp.res) = some 1 := by decide

/-- V40-10: a change makes the latches unknown. -/
theorem test_set_storage :
    (after (exec .setStorage (withVal 3 { st0 with latch := .const (some 1) }))).map (fun t => (t.store.mode, t.latch)) =
      some (3, .const none) := by decide

/-- S5, R130: 8 is out of range, 6 is not. -/
theorem test_set_storage_range :
    (after (exec .setStorage (withVal 8 st0))).map (fun t => (t.store.mode, t.resp.status)) = some (0, 1) ∧
    (after (exec .setStorage (withVal 6 st0))).map (fun t => (t.store.mode, t.resp.status)) = some (6, 0) := by decide

theorem test_get_storage : (after (exec .getStorage (withMode 6 st0))).map (·.resp.res) = some 6 := by decide

theorem test_get_sizes :
    (after (exec .getRdSize st22)).map (·.resp.res) = some 2 ∧ (after (exec .getWrSize st22)).map (·.resp.res) = some 2 := by
  decide

/-! ## Direct I/O (section 2.3) and the latch (section 2.4) -/

/-- V41-1. -/
theorem test_read :
    (after (exec (.read 1) { st0 with env := { st0.env with pins := { st0.env.pins with c1 := some 0x5A } } })).map (fun t =>
      (t.resp.status, t.resp.res, t.latch.c1)) = some (0, 0x5A, some 0x5A) := by decide

/-- V41-2. -/
theorem test_read_wrong_direction :
    (after (exec (.read 2) st22)).map (·.events) = some [.response 2 0 0] := by decide

/-- V41-3. -/
theorem test_write :
    (after (exec (.write 2) (withVal 0x1FF st22))).map (fun t => (t.outReg.c2, t.resp.status)) = some (some 0xFF, 0) := by decide

/-- V41-4. -/
theorem test_write_wrong_direction :
    (after (exec (.write 0) (withVal 0x22 st0))).map (·.events) = some [.response 2 0 0] := by decide

/-- V42-2: in mode 1 a read of channel 0 latches all four. -/
theorem test_mode1_group : (after (exec (.read 0) (withMode 1 st0))).map (·.latch) =
    some { c0 := some 0x10, c1 := some 0x11, c2 := some 0x12, c3 := some 0x13 } := by decide

/-- V42-4: in mode 2 channel 3 answers its edge sample. -/
theorem test_mode2_edge_class :
    (after (exec (.read 3) (withMode 2 { st0 with latch := { st0.latch with c3 := some 0x99 } }))).map (·.resp.res) =
      some 0x99 := by decide

/-- V42-5: in mode 3 an edge samples channels 2 and 3 only. -/
theorem test_mode3_edge :
    (after (step (lined (.env .edge) (withMode 3 { st0 with irqEnable := true })))).map (fun t => (t.latch, t.irqPending)) =
      some ({ c0 := none, c1 := none, c2 := some 0x12, c3 := some 0x13 }, true) := by decide

/-- V42-9: mode 7, live. -/
theorem test_mode7_live :
    (after (exec (.read 1) (withMode 7 { st0 with latch := .const (some 0x44) }))).map (·.resp.res) = some 0x11 := by decide

/-- R177: only the selected polarity is an edge event. -/
theorem test_other_polarity :
    (after (step (lined (.env (.transition .rising)) { st0 with irqEnable := true }))).map (·.irqPending) = some false := by
  decide

/-! ## Block I/O (section 2.5) -/

/-- S3: BufferTooSmall, no access. -/
theorem test_blkread_too_small :
    (after (exec .blkread (withVal 3 st0))).map (·.events) = some [.response 4 0 0] := by decide

/-- V43-3: the cursor skips channels 0 (not buffered) and 2 (Output). -/
theorem test_blkread_cursor :
    (after (exec .blkread (withAddr 0x100 (withVal 2 { st22 with store := { st22.store with
        dir := { c0 := .input, c1 := .input, c2 := .output, c3 := .input }
        bufEn := { c0 := false, c1 := true, c2 := true, c3 := true }, readSize := 2, writeSize := 1 } })))).map (·.blk) =
      some (some { op := .blkread, chans := [.ch1, .ch3], k := 0, addr := 0x100 }) := by decide

/-- R66, R190: both paths of BLKREAD ask the transport's mode, an event of its own beside R16's list. -/
theorem test_blkread_asks_mode :
    (after (exec .blkread (withVal 4 st0))).map (fun t => (t.events, t.observed)) = some ([.bufMode .userControlled], []) ∧
    (after (exec .blkread { st0 with transport := { st0.transport with mode := .currentValueOnly } })).map (·.events) =
      some [.bufMode .currentValueOnly] := by decide

/-- S4. -/
theorem test_blkwrite_none :
    (after (exec .blkwrite (withVal 4 st0))).map (·.events) = some [.response 3 0 0] := by decide

/-- The first transfer of S8: byte 0x22 to port C. -/
def st8 : State :=
  { st22 with hmem := [(0x200, 0x22), (0x201, 0x44)]
              blk := some { op := .blkwrite, chans := [.ch2, .ch3], k := 0, addr := 0x200 } }

theorem test_blkwrite_first_transfer :
    (after (step st8)).map (fun t => (t.outReg.c2, t.outReg.c3, t.events)) =
      some (some 0x22, some 0, [.memRead 0x200 0x22, .portWrite .ch2 0x22]) := by decide

/-- V43-1's last transfer: the fourth channel's byte and the response OK / 4 / 0. -/
theorem test_blkread_last_transfer :
    (after (step { st0 with blk := some { op := .blkread, chans := Channel.all, k := 3, addr := 0x100 } })).map (fun t =>
      (t.hmem, t.blk, t.resp.status, t.resp.res)) = some ([(0x103, 0x13)], none, 0, 4) := by decide

/-- A delegated read waiting on the transport, with the bytes 11 22 captured. -/
def st6 : State :=
  { st0 with transport := { st0.transport with mode := .ringBuffer, ready := [0x11, 0x22], acquired := 2 }
             rdWait := some { cap := 3, addr := 0x300, answer := none } }

/-- V43-6's answer completes with OK / 2 / 1. -/
theorem test_delegated_completes :
    (after (step { st6 with rdWait := some { cap := 3, addr := 0x300, answer := some (.bytes [0x11, 0x22]) } })).map (fun t =>
      (t.hmem, t.resp.status, t.resp.res, t.resp.res2)) = some ([(0x300, 0x11), (0x301, 0x22)], 0, 2, 1) := by decide

/-- V43-7: BufferError with the transport's code. -/
theorem test_delegated_error :
    (after (step { st6 with rdWait := some { cap := 3, addr := 0x300, answer := some (.err 5) } })).map (fun t =>
      (t.hmem, t.resp.status, t.resp.res)) = some ([], 11, 5) := by decide

/-! ## ISR (section 2.6) -/

/-- V44-6: not enabled, no entry. -/
theorem test_service_masked :
    (after (exec .serviceIrq { st0 with irqPending := true })).map (·.isr) = some .idle := by decide

theorem test_service_enters :
    (after (exec .serviceIrq { st0 with irqPending := true, irqEnable := true })).map (·.isr) = some .ack := by decide

/-- V44-2: no slot, so the channel is not read and the harvest ends. -/
theorem test_overrun :
    (after (step { st0 with isr := .harvest .ch1, env := { st0.env with slotFree := some false } })).map (fun t =>
      (t.isr, t.events)) = some (.notify, [.bufAcquire none, .overrun .ch1]) := by decide

/-- S7 and V44-1 list a channel's harvest as PortRead, BufPut, BufReady; R66 adds the slot's acquisition before them. -/
theorem test_harvest_events :
    (after (step { st0 with isr := .harvest .ch1 })).map (fun t => (t.observed, t.events.length)) =
      some ([.portRead .ch1 0x11, .bufPut 0 0x11, .bufReady 0], 4) := by decide

/-- V44-4: the counter wraps. -/
theorem test_count_wraps :
    (after (step { st0 with isr := .count, irqCount := 0xFFFFFFFF })).map (fun t => (t.isr, t.irqCount)) =
      some (.idle, 0) := by decide

/-- V44-5. -/
theorem test_notify :
    (after (step { st0 with isr := .notify, sigTarget := 0x1234 })).map (fun t => (t.isr, t.events)) =
      some (.count, [.notify 0x1234]) := by decide

/-! ## Notification (section 2.7) -/

theorem test_get_sig : (after (exec .getSig { st0 with sigTarget := 7 })).map (·.resp.res) = some 7 := by decide

/-- V45-2, V45-3: zero is checked first. -/
theorem test_set_sig_errors :
    (after (exec .setSig (withVal 0 { st0 with sigTarget := 5 }))).map (·.resp.status) = some 7 ∧
    (after (exec .setSig (withVal 5 { st0 with sigTarget := 5 }))).map (·.resp.status) = some 5 := by decide

/-- V45-5. -/
theorem test_set_sig :
    (after (exec .setSig (withVal 0xFFFFFFFF st0))).map (·.sigTarget) = some 0xFFFFFFFF := by decide

/-- V45-6 and a removal. -/
theorem test_set_sigclr :
    (after (exec .setSigclr st0)).map (·.resp.status) = some 6 ∧
    (after (exec .setSigclr { st0 with sigTarget := 5 })).map (·.sigTarget) = some 0 := by decide

/-! ## Host surface (section 2.8) -/

/-- S10: the defaults of an empty record. -/
theorem test_init_defaults :
    (after (exec .init cold)).map (fun t => (t.life, t.store, t.irqCount, t.resp.status)) = some (.active, st0.store, 0, 0) := by
  decide

/-- V46-5: validation comes before the identification check. -/
theorem test_init_validates_first :
    (after (exec .init (withCfg { Cfg.empty with mode := some 9 } { cold with env := { cold.env with idOk := some false } }))).map
      (fun t => (t.life, t.resp.status)) = some (.uninit, 1) := by decide

/-- V46-12. -/
theorem test_exit :
    (after (exec .exit { st22 with sigTarget := 5 })).map (fun t =>
      (t.life, t.store.dir, t.outReg.c2, t.sigTarget, t.events.length)) = some (.uninit, .const .input, none, 0, 12) := by decide

/-- R352: where EXIT keeps them, the output register written before it is still there. -/
theorem test_exit_kept :
    (after (exec .exit { st22 with params := { st22.params with exitRegisters := .kept } })).map (fun t =>
      (t.life, t.store.dir, t.outReg.c2)) = some (.uninit, .const .input, some 0) := by decide

/-- V46-7. -/
theorem test_info :
    (after (exec .infoNspaces cold)).map (·.resp.res) = some 1 ∧
    (after (exec .infoSpacewidth (withVal 0 cold))).map (·.resp.res) = some 16 ∧
    (after (exec .infoSpacewidth (withVal 1 cold))).map (·.resp.status) = some 1 ∧
    (after (exec .infoIrqreq cold)).map (·.resp.res) = some 1 := by decide

/-- V46-8. -/
theorem test_debug_level :
    (after (exec .setDebugLevel (withVal 0xDEAD st0))).map (·.debugLevel) = some 0xDEAD ∧
    (after (exec .getDebugLevel { st0 with debugLevel := 0xDEAD })).map (·.resp.res) = some 0xDEAD := by decide

/-- V46-9 and the enabling write. -/
theorem test_irq_enable :
    (after (exec .setIrqEnable (withVal 2 st0))).map (·.resp.status) = some 1 ∧
    (after (exec .setIrqEnable (withVal 1 st0))).map (·.irqEnable) = some true ∧
    (after (exec .getIrqEnable { st0 with irqEnable := true })).map (·.resp.res) = some 1 := by decide

/-- V46-10. -/
theorem test_irq_count :
    (after (exec .setIrqCount (withVal 7 st0))).map (·.irqCount) = some 7 ∧
    (after (exec .getIrqCount { st0 with irqCount := 7 })).map (·.resp.res) = some 7 := by decide

/-- V46-11: 8 bits; the type code is open. -/
theorem test_channel_metadata :
    (after (exec (.getChLen 2) st0)).map (·.resp.res) = some 8 ∧
    (after (exec (.getChType 2) st0)).map (·.resp.status) = some 0 := by decide

/-! ## Witnesses: what the hypotheses of the obligations ask for can be met -/

theorem wit_presented (x : Input) : Presented (lined x st0) x [] := ⟨rfl, rfl, rfl, rfl, rfl⟩

theorem wit_DecodeOfEncode : (Instr.setTerm 3).wellFormed = true ∧ (Instr.serviceIrq).wellFormed = true := by decide

theorem wit_EncodeOfDecode : decode .command 0x302 = .instr .exit ∧ decode .command 0x303 = .instr (.read 3) := by decide

theorem wit_StepRunsPresentedCommand :
    Presented (lined (.command (word 0x302)) st0) (.command (word 0x302)) [] ∧ decode .command (word 0x302).cmd = .instr .exit :=
  ⟨wit_presented _, by decide⟩

/-- Every call's premise, whatever the call; the widest channel that is well formed; and a service call inside a block command. -/
theorem wit_ApiCallRunsItsCommand :
    (∀ a, Presented (lined (.api a) st0) (.api a) []) ∧ (Instr.setChDir 3).wellFormed = true ∧
    (lined (.api .serviceInterrupt) st8).inbox = .api .serviceInterrupt :: [] ∧ (lined (.api .serviceInterrupt) st8).isr = .idle ∧
    st8.blk ≠ none :=
  ⟨fun _ => wit_presented _, by decide, rfl, rfl, by decide⟩

/-- R104: `enable` carries its target, `setTermination` runs SET.TERM, `shutdown` runs EXIT. -/
theorem test_api_calls :
    (after (step (lined (.api (.enable 9)) st0))).map (·.sigTarget) = some 9 ∧
    (after (step (lined (.api (.setTermination 1 1)) st0))).map (·.store.term.c1) = some .active ∧
    (after (step (lined (.api .shutdown) st0))).map (·.life) = some .uninit := by decide

/-- The reserved field's lowest bit, and the first and last opcodes of each clause of R99. -/
theorem wit_UnlistedCommandWords :
    (∀ w, Presented (lined (.command (word w)) st0) (.command (word w)) [] ∧ (lined (.command (word w)) st0).life = .active) ∧
    (word 0x400).cmd.extractLsb' 10 22 ≠ 0 ∧
    (∀ op ∈ [0x00, 0x07, 0x0B, 0x0E, 0x10, 0x7F, 0x0F, 0x86, 0x8F, 0x98, 0xBF, 0xC6, 0xCF, 0xD8, 0xFF, 0xC4, 0xC5, 0xD6, 0xD7,
        0x94],
      (word (BitVec.ofNat 32 op)).cmd.extractLsb' 10 22 = 0 ∧
        op = ((word (BitVec.ofNat 32 op)).cmd.extractLsb' 0 8).toNat) :=
  ⟨fun _ => ⟨wit_presented _, rfl⟩, by decide, by decide⟩

theorem wit_InterruptPortWords :
    (∀ w, (lined (.service w) st0).inbox = [.service w] ∧ (lined (.service w) st0).isr = .idle ∧
      (lined (.service w) st0).life = .active ∧ (lined (.service w) cold).inbox = [.service w] ∧
      (lined (.service w) cold).isr = .idle ∧ (lined (.service w) cold).life = .uninit) ∧
    (0x30F : Word).extractLsb' 10 22 = 0 ∧ (0x30F : Word).extractLsb' 0 8 = 0x0F ∧
    (0x40F : Word).extractLsb' 10 22 ≠ 0 ∧ (0x003 : Word).extractLsb' 10 22 = 0 ∧ (0x003 : Word).extractLsb' 0 8 ≠ 0x0F :=
  ⟨fun _ => ⟨rfl, rfl, rfl, rfl, rfl, rfl⟩, by decide, by decide, by decide, by decide, by decide⟩

theorem wit_LifecycleGate :
    cold.life = .uninit ∧ st0.life = .active ∧ Instr.exit.port = .command ∧ Instr.exit ≠ .init ∧ Instr.exit ≠ .infoNspaces ∧
    Instr.exit ≠ .infoSpacewidth ∧ Instr.exit ≠ .infoIrqreq ∧
    Presented (lined (.command (word 0x86)) cold) (.command (word 0x86)) [] ∧
    (∀ i, decode .command (word 0x86).cmd ≠ .instr i) :=
  ⟨rfl, rfl, rfl, by decide, by decide, by decide, by decide, ⟨rfl, rfl, rfl, rfl, rfl⟩, by
    rw [show decode .command (word 0x86).cmd = .unknownStatusCode by decide]
    exact fun _ h => nomatch h⟩

theorem wit_ChannelOutOfRangeFaults : (Instr.getTerm 4).channel? = some 4 ∧ 4 ≤ 4 ∧ st0.life = .active := by decide

/-- Each way a host call waits, and each input that waits for the ISR; the agents already running have a step in each. -/
theorem wit_PresentedCommandWaits :
    MustWait { st0 with isr := .ack } (.command (word 1)) ∧ MustWait st8 (.command (word 1)) ∧ MustWait st6 (.api .query) ∧
    MustWait { st0 with stuck := true } (.api .shutdown) ∧ MustWait { st0 with isr := .ack } (.service 0x0F) ∧
    MustWait { st0 with isr := .ack } (.api .serviceInterrupt) ∧ MustWait { st0 with isr := .ack } .callTurn ∧
    (∀ (s : State) (x : Input), ({ s with inbox := [x] } : State).inbox = x :: []) ∧
    steps (step { st8 with inbox := [] }) = true ∧ steps (step { st6 with inbox := [] }) = true ∧
    steps (step { st0 with isr := .ack, inbox := [] }) = true ∧ steps (step { st0 with stuck := true, inbox := [] }) = true :=
  ⟨.inl ⟨.inl ⟨_, rfl⟩, .inl (by decide)⟩, .inl ⟨.inl ⟨_, rfl⟩, .inr (.inl (by decide))⟩,
    .inl ⟨.inr ⟨_, rfl, by decide⟩, .inr (.inr (.inl (by decide)))⟩, .inl ⟨.inr ⟨_, rfl, by decide⟩, .inr (.inr (.inr rfl))⟩,
    .inr ⟨.inl ⟨_, rfl⟩, by decide⟩, .inr ⟨.inr (.inl rfl), by decide⟩, .inr ⟨.inr (.inr rfl), by decide⟩, fun _ _ => rfl,
    by decide, by decide, by decide, by decide⟩

/-- Every statement about one command of an Active instance: the instance, and the operands where its clauses meet. -/
theorem wit_active : st0.life = .active ∧ (withVal 0 st0).port.val = 0 ∧ (withVal 1 st0).port.val = 1 ∧
    1 < (withVal 2 st0).port.val.toNat ∧ 7 < (withVal 8 st0).port.val.toNat ∧ (withVal 7 st0).port.val = (7 : BitVec 3).setWidth 32 ∧
    1 ≤ (withVal 1 st0).port.val.toNat := by decide

/-- READ, WRITE: a channel of each direction. -/
theorem wit_directions : st22.life = .active ∧ st22.store.dir.get .ch1 = .input ∧ st22.store.dir.get .ch2 = .output := by decide

/-- Each mode's clauses of the port read, with known pins and latches. -/
theorem wit_PortReadFollowsTheModeTable :
    (withMode 0 st0).store.mode = 0 ∧ (withMode 2 st0).store.mode = 2 ∧ (withMode 3 st0).store.mode = 3 ∧
    (withMode 4 st0).store.mode = 4 ∧ (withMode 1 st0).store.mode = 1 ∧ (withMode 5 st0).store.mode = 5 ∧
    (withMode 7 st0).store.mode = 7 ∧ st0.params.mode7Read = .live ∧
    ({ st0.params with mode7Read := .frozen } : Config.Params).mode7Read = .frozen ∧ (withMode 6 st0).store.mode = 6 ∧
    ({ st0 with latch := .const (some 3) } : State).latch.get .ch3 = some 3 := by decide

/-- Pins of both directions; every move; the last host byte, and the first address past a shorter buffer. -/
theorem wit_EnvironmentMovesWrite :
    st22.store.dir.get .ch2 = .output ∧ st22.outReg.get .ch2 = some 0 ∧
    st0.store.dir.get .ch1 = .input ∧ st0.env.pins.get .ch1 = some 0x11 ∧
    (∀ m, (lined (.env m) st0).inbox = .env m :: []) ∧
    hmemExists st0.params (0xFFFFFFFF : Word).toNat = true ∧ Memory.wf st8.hmem = true ∧
    hmemExists { st0.params with hmem := [{ base := 0, size := 16 }] } (16 : Word).toNat = false :=
  ⟨by decide, by decide, by decide, by decide, fun _ => rfl, by decide, by decide, by decide⟩

/-- R103: `ENV.PINS 1 = 0x5A` moves the pins of channel 1 and of no other. -/
theorem test_env_pins :
    (after (step (lined (.env (.pins .ch1 (some 0x5A))) st0))).map (fun t => (t.pin .ch1, t.pin .ch2, t.events)) =
      some (0x5A, 0x12, []) := by decide

/-- The three ways the call context's turn comes: nothing lined up, a turn of the block's agents, and its own turn. -/
theorem wit_turns :
    (∀ s : State, s.isr = .idle → s.request = false →
      CallTurn { s with inbox := [] } [] ∧ CallTurn (lined .tick s) [] ∧ CallTurn (lined .callTurn s) []) ∧
    (∀ s : State, OwnTurn { s with inbox := [] } [] ∧ OwnTurn (lined .tick s) []) ∧
    CallTurn (lined .callTurn { st8 with irqPending := true, irqEnable := true }) [] :=
  ⟨fun _ hi hr => ⟨⟨hi, .inl ⟨.inl ⟨rfl, rfl⟩, fun _ => hr⟩⟩, ⟨hi, .inl ⟨.inr rfl, fun _ => hr⟩⟩, ⟨hi, .inr rfl⟩⟩,
    fun _ => ⟨.inl ⟨rfl, rfl⟩, .inr rfl⟩, ⟨rfl, .inr rfl⟩⟩

theorem wit_EdgeEventLatchesAndPends :
    (∀ m, (lined (.env m) (withMode 3 st0)).inbox = .env m :: []) ∧
    EnvMove.transition .falling = .transition (withMode 3 st0).store.edge ∧ TriggerEdge.rising ≠ (withMode 3 st0).store.edge :=
  ⟨fun _ => rfl, rfl, by decide⟩

/-- BLKREAD direct: sizes 0, one byte short, exactly enough at the top of the buffer, and one byte past it. -/
theorem wit_BlkreadDirectChecks :
    st0.life = .active ∧ st0.transport.mode = .userControlled ∧
    ({ st0.store with readSize := 0 } : Store).readSize = 0 ∧ (withVal 3 st0).port.val.toNat < st0.store.readSize.toNat ∧
    st0.store.readSize ≠ 0 ∧ st0.store.readSize.toNat ≤ (withVal 4 st0).port.val.toNat ∧
    (∀ k < st0.store.readSize.toNat, hmemExists st0.params ((withAddr 0xFFFFFFFC st0).port.addr.toNat + k) = true) ∧
    (∃ k < st0.store.readSize.toNat, hmemExists st0.params ((withAddr 0xFFFFFFFD st0).port.addr.toNat + k) = false) := by decide

theorem wit_BlkreadDelegates : st6.life = .active ∧ st6.transport.mode ≠ .userControlled := by decide

theorem wit_BlkwriteChecks :
    st22.life = .active ∧ st0.store.writeSize = 0 ∧ (withVal 1 st22).port.val.toNat < st22.store.writeSize.toNat ∧
    st22.store.writeSize ≠ 0 ∧ st22.store.writeSize.toNat ≤ (withVal 2 st22).port.val.toNat ∧
    (∀ k < st22.store.writeSize.toNat, hmemExists st22.params ((withAddr 0xFFFFFFFE st22).port.addr.toNat + k) = true) ∧
    (∃ k < st22.store.writeSize.toNat, hmemExists st22.params ((withAddr 0xFFFFFFFF st22).port.addr.toNat + k) = false) := by
  decide

/-- A BLKREAD of all four channels in flight, before its transfer `k`. -/
def st1 (k : Nat) : State := { st0 with blk := some { op := .blkread, chans := Channel.all, k := k, addr := 0x100 } }

theorem wit_BlkreadTransfersOneByte :
    (∀ k, CallTurn (st1 k) [] ∧ CallTurn (lined .tick (st1 k)) [] ∧ CallTurn (lined .callTurn (st1 k)) [] ∧
      (st1 k).stuck = false ∧ Memory.wf (st1 k).hmem = true ∧ (st1 k).blk = some { op := .blkread, chans := Channel.all, k := k, addr := 0x100 }) ∧
    Channel.all[2]? = some .ch2 ∧ 2 + 1 < Channel.all.length ∧ Channel.all[3]? = some .ch3 ∧ 3 + 1 = Channel.all.length ∧
    hmemExists st0.params (0x100 + 2) = true ∧ hmemExists st0.params (0x100 + 3) = true :=
  ⟨fun k => ⟨(wit_turns.1 (st1 k) rfl rfl).1, (wit_turns.1 (st1 k) rfl rfl).2.1, (wit_turns.1 (st1 k) rfl rfl).2.2, rfl, rfl, rfl⟩,
    by decide, by decide, by decide, by decide, by decide, by decide⟩

theorem wit_BlkwriteTransfersOneByte :
    CallTurn st8 [] ∧ CallTurn (lined .tick st8) [] ∧ CallTurn (lined .callTurn st8) [] ∧ st8.stuck = false ∧
    [Channel.ch2, Channel.ch3][0]? = some .ch2 ∧ 0 + 1 < [Channel.ch2, Channel.ch3].length ∧
    [Channel.ch2, Channel.ch3][1]? = some .ch3 ∧ 1 + 1 = [Channel.ch2, Channel.ch3].length ∧
    hmemExists st8.params (0x200 + 0) = true ∧ hmemExists st8.params (0x200 + 1) = true :=
  ⟨(wit_turns.1 st8 rfl rfl).1, (wit_turns.1 st8 rfl rfl).2.1, (wit_turns.1 st8 rfl rfl).2.2, by decide, by decide, by decide,
    by decide, by decide, by decide, by decide⟩

theorem wit_TransportAnswersWithinItsContract :
    (∀ a, (lined (.env (.bufAnswer a)) st6).inbox = .env (.bufAnswer a) :: []) ∧
    st6.rdWait = some { cap := 3, addr := 0x300, answer := none } ∧
    ([0x11, 0x22, 0x22] : List Byte).length ≤ (3 : Word).toNat ∧ (∀ b ∈ ([0x11, 0x22, 0x22] : List Byte), b ∈ st6.transport.ready) ∧
    (3 : Word).toNat < ([0x11, 0x11, 0x11, 0x11] : List Byte).length ∧
    (∃ b ∈ ([0x33] : List Byte), b ∉ st6.transport.ready) :=
  ⟨fun _ => rfl, rfl, by decide, by decide, by decide, by decide⟩

theorem wit_DelegatedReadCompletes :
    CallTurn st6 [] ∧ CallTurn (lined .tick st6) [] ∧ CallTurn (lined .callTurn st6) [] ∧ st6.stuck = false ∧ st6.blk = none ∧ Memory.wf st6.hmem = true ∧
    (∀ k < ([0x11, 0x22] : List Byte).length, hmemExists st6.params ((0xFFFFFFFE : Word).toNat + k) = true) ∧
    (∃ k < ([0x11, 0x22] : List Byte).length, hmemExists st6.params ((0xFFFFFFFF : Word).toNat + k) = false) :=
  ⟨(wit_turns.1 st6 rfl rfl).1, (wit_turns.1 st6 rfl rfl).2.1, (wit_turns.1 st6 rfl rfl).2.2, by decide, by decide, by decide,
    by decide, by decide⟩

/-- The invariant in a state with a block command in flight. -/
theorem wit_inv_blkwrite : st8.Inv :=
  { sizes := by unfold State.SizesCount; decide
    memory := by decide
    cursor := by
      intro cur h
      injection h with h
      subst h
      decide
    wait := by
      intro w h
      cases h
    quiet := by
      intro h
      cases h
    assigned := by
      intro k h
      cases h }

theorem wit_inv_blkread : (st1 0).Inv :=
  { sizes := by unfold State.SizesCount; decide
    memory := by decide
    cursor := by
      intro cur h
      injection h with h
      subst h
      decide
    wait := by
      intro w h
      cases h
    quiet := by
      intro h
      cases h
    assigned := by
      intro k h
      cases h }

theorem wit_BlkwriteRun :
    st8.Inv ∧ st8.inbox = [] ∧ st8.isr = .idle ∧ st8.request = false ∧
      st8.blk = some { op := .blkwrite, chans := st8.store.sel .output, k := 0, addr := 0x200 } :=
  ⟨wit_inv_blkwrite, by decide, by decide, by decide, by decide⟩

theorem wit_BlkreadRun :
    (st1 0).Inv ∧ (st1 0).inbox = [] ∧ (st1 0).isr = .idle ∧ (st1 0).request = false ∧ (st1 0).store.mode = 0 ∧
      (st1 0).blk = some { op := .blkread, chans := (st1 0).store.sel .input, k := 0, addr := 0x100 } ∧
      ((st1 0).store.sel .input)[3]? = some .ch3 ∧ (st1 0).env.pins.get .ch3 = some 0x13 :=
  ⟨wit_inv_blkread, by decide, by decide, by decide, by decide, by decide, by decide, by decide⟩

theorem wit_ServiceEntersWhereEnabled :
    st0.life = .active ∧ st0.isr = .idle ∧ cold.life = .uninit ∧ ({ st0 with isr := .count } : State).isr ≠ .idle ∧
    ({ st0.params with spuriousService := true } : Config.Params).spuriousService = true ∧ st0.irqPending = false ∧
    st0.irqEnable = false ∧ st0.params.spuriousService = false := by decide

/-- An asserted request, and the states of the sequencer with nothing lined up. -/
theorem wit_sequencer :
    (∀ i, ({ st0 with isr := i, irqPending := true, irqEnable := true } : State).inbox = [] ∧
      ({ st0 with isr := i, irqPending := true, irqEnable := true } : State).isr = i ∧
      ({ st0 with isr := i, irqPending := true, irqEnable := true } : State).life = .active ∧
      ({ st0 with isr := i, irqPending := true, irqEnable := true } : State).irqPending = true ∧
      ({ st0 with isr := i, irqPending := true, irqEnable := true } : State).irqEnable = true) ∧
    st0.sigTarget = 0 ∧ ({ st0 with sigTarget := 7 } : State).sigTarget ≠ 0 :=
  ⟨fun _ => ⟨rfl, rfl, rfl, rfl, rfl⟩, rfl, by decide⟩

/-- The four clauses of a harvest: skipped both ways, truncated, harvested. -/
theorem wit_HarvestStep :
    OwnTurn (lined .tick { st0 with isr := .harvest .ch3 }) [] ∧
    ({ st0.store with bufEn := .const false } : Store).bufEn.get .ch3 = false ∧ st22.store.dir.get .ch3 = .output ∧
    st0.store.bufEn.get .ch3 = true ∧ st0.store.dir.get .ch3 = .input ∧
    ({ st0.env with slotFree := some false } : Env).slotFree = some false ∧ st0.env.slotFree = some true :=
  ⟨.inr rfl, by decide, by decide, by decide, by decide, by decide, by decide⟩

theorem wit_IsrWritesNoConfiguration :
    ({ st0 with isr := .notify } : State).isr ≠ .idle ∧ steps (step { st0 with isr := .notify }) = true := by decide

theorem wit_ServicesDoNotNest :
    ({ lined (.env .edge) st0 with isr := .ack } : State).isr ≠ .idle ∧
    (after (step { lined (.env .edge) st0 with isr := .ack })).map (·.isr) = some .ack := by decide

theorem wit_OnlyAckClearsPending :
    ({ st0 with irqPending := true, isr := .count } : State).life = .active ∧
    ({ st0 with irqPending := true, isr := .count } : State).irqPending = true ∧
    ({ st0 with irqPending := true, isr := .count } : State).isr ≠ .ack ∧
    steps (step { st0 with irqPending := true, isr := .count }) = true := by decide

/-- The four ways the counter's clauses are met: a service, SET.IRQ_COUNT, INIT as a command, INIT as a call. -/
theorem wit_CounterMovesByServicesAndCommands :
    (after (step { st0 with isr := .count })).map (·.irqCount) = some 1 ∧
    (after (step (lined (.command { word 0xC2 with val := 7 }) st0))).map (·.irqCount) = some 7 ∧
    (after (step (lined (.command (word 0x01)) { cold with irqCount := 3 }))).map (·.irqCount) = some 0 ∧
    (after (step (lined (.api (.initialise .empty)) { cold with irqCount := 3 }))).map (·.irqCount) = some 0 := by decide

/-- SET.SIG's clauses, each operand against each stored target. -/
theorem wit_SetSigInstalls :
    (withVal 0 st0).port.val = 0 ∧ (withVal 5 st0).port.val ≠ 0 ∧ ({ st0 with sigTarget := 5 } : State).sigTarget ≠ 0 ∧
    st0.sigTarget = 0 ∧ st0.env.sigOk = some true ∧ ({ st0.env with sigOk := some false } : Env).sigOk = some false := by decide

/-- The empty record with every answer of the environment a success. -/
theorem wit_InitProgramsTheBlock :
    cold.life = .uninit ∧ cold.port.cfg = .empty ∧ cold.env.idOk = some true ∧ cold.env.allocOk = some true ∧
    cold.env.transportOk = some true ∧
    Cfg.empty =
      { idCheck := (none : Option Bool).map fun x => if x then 1 else 0
        edge := (none : Option TriggerEdge).map fun x => if x = .falling then 0 else 1
        mode := (none : Option (BitVec 3)).map fun x => x.setWidth 32
        dir := .ofFn fun c => ((Chans.const (none : Option Direction)).get c).map fun x => if x = .input then 0 else 1
        term := .ofFn fun c => ((Chans.const (none : Option Termination)).get c).map fun x => if x = .passive then 0 else 1
        bufEn := .ofFn fun c => ((Chans.const (none : Option Bool)).get c).map fun x => if x then 1 else 0
        tsize := none, tmode := (none : Option TransportMode).map TransportMode.code, ttimeout := none, thigh := none } := by
  decide

/-- One value past each domain's end. -/
theorem wit_InitRejectsOutOfRange :
    cold.life = .uninit ∧ 1 < (2 : Word).toNat ∧ 7 < (8 : Word).toNat ∧ 3 < (4 : Word).toNat ∧
    (withCfg { Cfg.empty with idCheck := some 2 } cold).port.cfg.idCheck = some 2 ∧
    (withCfg { Cfg.empty with edge := some 2 } cold).port.cfg.edge = some 2 ∧
    (withCfg { Cfg.empty with dir := .const (some 2) } cold).port.cfg.dir.get .ch3 = some 2 ∧
    (withCfg { Cfg.empty with term := .const (some 2) } cold).port.cfg.term.get .ch3 = some 2 ∧
    (withCfg { Cfg.empty with bufEn := .const (some 2) } cold).port.cfg.bufEn.get .ch3 = some 2 ∧
    (withCfg { Cfg.empty with mode := some 8 } cold).port.cfg.mode = some 8 ∧
    (withCfg { Cfg.empty with tmode := some 4 } cold).port.cfg.tmode = some 4 := by decide

/-- A record that resolves, with the check on and off; its size is given, so that nothing open is asked. -/
theorem wit_InitErrorsInOrder :
    cold.life = .uninit ∧
    ((withCfg { Cfg.empty with tsize := some 8 } cold).port.cfg.resolve).map (·.idCheck) = some true ∧
    ((withCfg { Cfg.empty with tsize := some 8, idCheck := some 0 } cold).port.cfg.resolve).map (·.idCheck) = some false ∧
    ({ cold.env with idOk := some false } : Env).idOk = some false ∧ cold.env.idOk = some true ∧
    ({ cold.env with allocOk := some false } : Env).allocOk = some false ∧ cold.env.allocOk = some true ∧
    ({ cold.env with transportOk := some false } : Env).transportOk = some false := by decide

theorem wit_ExitDrivesTheSafeState :
    st22.life = .active ∧ ({ st22 with sigTarget := 5 } : State).sigTarget ≠ 0 ∧ st22.store.dir.get .ch2 = .output ∧
    st22.store.dir.get .ch1 = .input ∧ st22.params.exitRegisters = .unknown ∧
    ({ st22.params with exitRegisters := .kept } : Config.Params).exitRegisters = .kept := by decide

/-- A step from a state with the invariant, for the statements about every step. -/
theorem wit_steps_with_invariant : st8.Inv ∧ steps (step st8) = true := ⟨wit_inv_blkwrite, by decide⟩

theorem wit_SizesWithinFour : st22.SizesCount := by unfold State.SizesCount; decide

theorem wit_ErrorsChangeNothing :
    (after (exec (.read 2) st22)).map (·.events) = some (st22.events ++ [.response 2 0 0]) ∧
    Event.response 2 0 0 ∈ [Event.response 2 0 0] ∧ (2 : Word) ≠ 0 := by decide

theorem wit_MarksAreSticky :
    steps (step { st0 with refused := some .reservedBits, faulted := some .channelOutOfRange }) = true := by decide

theorem wit_InstancesAreIndependent :
    (match stepInstance 1 [cold, { st0 with isr := .count }] with
      | .next l => l.map fun t => (t.irqCount, t.board)
      | .fault _ => []
      | .refused _ => []) = [(0, 0), (1, 1)] := by decide

end Sys2Proof.Tests
end

section
/-! Several boards (R7, R324): what a step of one instance can do to the list of instances. -/

namespace Sys2Proof.Machine

/-- An instance that exists is replaced by its own step's state; one that does not exist changes nothing. -/
theorem stepInstance_next_iff (n : Nat) (l l' : List State) :
    stepInstance n l = .next l' ↔
      (l[n]? = none ∧ l' = l) ∨
        ∃ s t, l[n]? = some s ∧ step { s with board := n } = .next t ∧ l' = l.set n t := by
  unfold stepInstance
  cases l[n]? with
  | none => simp [eq_comm]
  | some s => cases hstep : step { s with board := n } <;> simp [hstep, eq_comm]

end Sys2Proof.Machine

namespace Sys2Proof.Claims
open Sys2Proof.Machine

/-- Settles O60: the list changes at the stepped instance's place only, and there by that instance's own step. -/
theorem instancesAreIndependent : Obligations.InstancesAreIndependent := by
  intro n l l' h
  obtain ⟨hnone, rfl⟩ | ⟨s, t, hs, hstep, rfl⟩ := (stepInstance_next_iff n l l').mp h
  · exact ⟨rfl, fun _ _ => rfl, fun s hs => by simp [hnone] at hs⟩
  · refine ⟨List.length_set, fun m hm => List.getElem?_set_ne hm.symm, fun s₀ hs₀ => ⟨t, ?_, ?_⟩⟩
    · obtain rfl : s = s₀ := Option.some.inj (hs.symm.trans hs₀)
      exact hstep
    · obtain ⟨hn, -⟩ := List.getElem?_eq_some_iff.mp hs
      exact List.getElem?_set_self hn

end Sys2Proof.Claims
end

section
/-! What a presented command can do to the state: one inversion of `exec`, from which the rules about every command follow by a
case split on the effect. -/

namespace Sys2Proof.Machine

/-- The command a block operation is the effect of. -/
def BlkOp.instr : BlkOp → Instr
  | .blkread => .blkread
  | .blkwrite => .blkwrite

/-- The next states of a command run in `s`, each with the guards its rule makes. -/
inductive CommandEffect (s : State) : Instr → State → Prop
  /-- the lifecycle gate of an instance not initialised (R270) -/
  | gated (i : Instr) (hl : s.life = .uninit) : CommandEffect s i (s.refuse .notInitialized)
  /-- INIT while Active (R270) -/
  | alreadyActive (hl : s.life = .active) : CommandEffect s .init (s.refuse .alreadyInitialized)
  /-- a channel of 4 or more (R95) -/
  | badChannel (i : Instr) : CommandEffect s i (s.markFault .channelOutOfRange)
  /-- an error (R311) -/
  | failed (i : Instr) (e : ErrCode) : CommandEffect s i (s.raiseErr e)
  /-- an error after a question to the environment (R251, R271) -/
  | failedAfterDraw (i : Instr) (e : ErrCode) : CommandEffect s i ({ s with draws := s.draws + 1 }.raiseErr e)
  /-- a query's answer (R98) -/
  | answered (i : Instr) (r : Word) : CommandEffect s i (s.succeed r)
  /-- INIT (R271) -/
  | programmed (v : InitValues) (hl : s.life = .uninit) : CommandEffect s .init ((s.program v).succeed 0)
  /-- EXIT (R276) -/
  | shutDown (hl : s.life = .active) : CommandEffect s .exit (s.shutdown.succeed 0)
  /-- READ (R150) -/
  | portRead (c : Channel) (hd : s.store.dir.get c = .input) :
      CommandEffect s (.read c.index) ((s.portRead c).succeed ((s.portValue c).setWidth 32))
  /-- WRITE (R151) -/
  | portWritten (c : Channel) (hd : s.store.dir.get c = .output) :
      CommandEffect s (.write c.index) ((s.portWrite c (s.port.val.extractLsb' 0 8)).succeed 0)
  /-- the cursor of a block command (R191, R200) -/
  | blockStarted (op : BlkOp) (hl : s.life = .active) (hz : op.size s.store ≠ 0)
      (ha : hmemAdmits s.params s.port.addr (op.size s.store).toNat = true) :
      CommandEffect s op.instr
        { s with
            blk := some { op := op, chans := s.store.sel op.direction, k := 0, addr := s.port.addr }
            events := s.events ++ op.queries s.transport.mode }
  /-- a block command whose host buffer does not exist (R62) -/
  | blockStuck (op : BlkOp) (hl : s.life = .active) : CommandEffect s op.instr { s with stuck := true }
  /-- the delegated read waits (R190, R192) -/
  | readWaits (hl : s.life = .active) (hm : s.transport.mode ≠ .userControlled) : CommandEffect s .blkread s.startWait
  /-- SERVICE_IRQ where it is enabled (R220) -/
  | entered (hl : s.life = .active) (hi : s.isr = .idle) : CommandEffect s .serviceIrq s.enterIsr
  /-- SERVICE_IRQ where it is not enabled (R220) -/
  | notEntered : CommandEffect s .serviceIrq s
  /-- SET.CH_DIR (R122) -/
  | dirSet (c : Channel) (d : Direction) (hl : s.life = .active) :
      CommandEffect s (.setChDir c.index) ((s.setDir c d).succeed 0)
  /-- SET.TERM (R124) -/
  | termSet (c : Channel) (t : Termination) (hl : s.life = .active) :
      CommandEffect s (.setTerm c.index) ((s.setTerm c t).succeed 0)
  /-- SET.BUFEN (R126) -/
  | bufEnSet (c : Channel) (b : Bool) (hl : s.life = .active) :
      CommandEffect s (.setBufen c.index) ((s.setBufEn c b).succeed 0)
  /-- SET.EDGE (R128) -/
  | edgeSet (e : TriggerEdge) (hl : s.life = .active) : CommandEffect s .setEdge ((s.setEdge e).succeed 0)
  /-- SET.STORAGE (R130) -/
  | modeSet (m : BitVec 3) (hl : s.life = .active) : CommandEffect s .setStorage ((s.setMode m).succeed 0)
  /-- SET.DEBUG_LEVEL (R291) -/
  | debugLevelSet (hl : s.life = .active) : CommandEffect s .setDebugLevel ({ s with debugLevel := s.port.val }.succeed 0)
  /-- SET.IRQ_ENABLE (R293) -/
  | irqEnableSet (b : Bool) (hl : s.life = .active) : CommandEffect s .setIrqEnable ((s.setIrqEnable b).succeed 0)
  /-- SET.IRQ_COUNT (R295) -/
  | irqCountSet (hl : s.life = .active) : CommandEffect s .setIrqCount ({ s with irqCount := s.port.val }.succeed 0)
  /-- SET.SIG (R251) -/
  | sigCreated (hl : s.life = .active) :
      CommandEffect s .setSig
        ({ s with sigTarget := s.port.val, draws := s.draws + 1, events := s.events ++ [.sigCreate s.port.val] : State }.succeed 0)
  /-- SET.SIGCLR (R252) -/
  | sigRemoved (hl : s.life = .active) :
      CommandEffect s .setSigclr
        ({ s with sigTarget := 0, events := s.events ++ [.sigRemove s.sigTarget] : State }.succeed 0)

namespace CommandEffect

variable {s : State} {i : Instr} {t : State}

theorem of_whenActive (h : s.life = .active → CommandEffect s i t) : CommandEffect s i (s.whenActive t) := by
  cases hl : s.life with
  | active => rw [State.whenActive_of_active hl]; exact h hl
  | uninit => rw [State.whenActive_of_uninit hl]; exact .gated i hl

theorem of_answer (r : Word) : CommandEffect s i (s.whenActive (s.succeed r)) := of_whenActive fun _ => .answered i r

/-- A channel operand either names a channel, which the command then carries as its index, or marks the fault. -/
theorem of_withChannel {mk : Nat → Instr} {ch : Nat} {k : Channel → State}
    (h : ∀ c : Channel, CommandEffect s (mk c.index) (k c)) : CommandEffect s (mk ch) (s.withChannel ch k) := by
  cases hc : Channel.ofNat? ch with
  | none => rw [State.withChannel_of_le (Channel.ofNat?_eq_none.mp hc)]; exact .badChannel _
  | some c => rw [Channel.ofNat?_eq_some hc, State.withChannel_index]; exact h c

theorem of_withValue {α : Type} {v : Option α} {k : α → State} (h : ∀ x, CommandEffect s i (k x)) :
    CommandEffect s i (s.withValue v k) :=
  State.withValue_ind (.failed i _) fun x _ => h x

theorem of_channelAnswer {mk : Nat → Instr} {ch : Nat} {r : Channel → Word} :
    CommandEffect s (mk ch) (s.whenActive (s.withChannel ch fun c => s.succeed (r c))) :=
  of_whenActive fun _ => of_withChannel fun c => .answered _ (r c)

theorem of_startBlock (op : BlkOp) (hl : s.life = .active) : CommandEffect s op.instr (s.startBlock op) := by
  rcases s.startBlock_cases op with ⟨-, h⟩ | ⟨-, -, h⟩ | ⟨hz, -, ha, h⟩ | ⟨-, -, -, h⟩ <;> rw [h]
  · exact .failed _ _
  · exact .failed _ _
  · exact .blockStarted op hl hz ha
  · exact .blockStuck op hl

theorem of_initialise (v : InitValues) (hl : s.life = .uninit) : CommandEffect s .init (s.initialise v) := by
  unfold State.initialise
  split
  · exact .failedAfterDraw _ _
  split
  · exact .failedAfterDraw _ _
  split
  · exact .failedAfterDraw _ _
  · exact .programmed v hl

theorem of_createSig (hl : s.life = .active) : CommandEffect s .setSig s.createSig := by
  unfold State.createSig
  split
  · exact .sigCreated hl
  · exact .failedAfterDraw _ _

end CommandEffect

open CommandEffect in
/-- Every command has a next state, and it is one of its effects. -/
theorem exec_effect (i : Instr) (s : State) : ∃ t, exec i s = .next t ∧ CommandEffect s i t := by
  cases i with
  | init =>
    refine ⟨_, rfl, ?_⟩
    cases hl : s.life with
    | active => exact .alreadyActive hl
    | uninit => exact of_withValue fun v => of_initialise v hl
  | exit => exact ⟨_, rfl, of_whenActive .shutDown⟩
  | read ch =>
    refine ⟨_, rfl, of_whenActive fun _ => of_withChannel fun c => ?_⟩
    cases hd : s.store.dir.get c with
    | input => exact .portRead c hd
    | output => exact .failed _ _
  | write ch =>
    refine ⟨_, rfl, of_whenActive fun _ => of_withChannel fun c => ?_⟩
    cases hd : s.store.dir.get c with
    | input => exact .failed _ _
    | output => exact .portWritten c hd
  | blkread =>
    refine ⟨_, rfl, of_whenActive fun hl => ?_⟩
    cases hm : s.transport.mode with
    | userControlled => exact of_startBlock .blkread hl
    | ringBuffer | ringBufferOverwrite | currentValueOnly => exact .readWaits hl (by simp [hm])
  | blkwrite => exact ⟨_, rfl, of_whenActive (of_startBlock .blkwrite)⟩
  | infoNspaces | infoIrqreq => exact ⟨_, rfl, .answered _ _⟩
  | infoSpacewidth =>
    refine ⟨_, rfl, ?_⟩
    split
    · exact .failed _ _
    · exact .answered _ _
  | serviceIrq =>
    refine ⟨_, rfl, ?_⟩
    split
    · next he =>
      simp only [State.serviceEnabled, Bool.and_eq_true, decide_eq_true_eq] at he
      obtain ⟨⟨hl, hi⟩, -⟩ := he
      exact .entered hl hi
    · exact .notEntered
  | getDebugLevel | getIrqEnable | getIrqCount | getEdge | getStorage | getSig | getRdSize | getWrSize =>
    exact ⟨_, rfl, of_answer _⟩
  | getChDir ch | getChLen ch | getChType ch | getTerm ch | getBufen ch => exact ⟨_, rfl, of_channelAnswer⟩
  | setDebugLevel => exact ⟨_, rfl, of_whenActive .debugLevelSet⟩
  | setIrqEnable => exact ⟨_, rfl, of_whenActive fun hl => of_withValue fun b => .irqEnableSet b hl⟩
  | setIrqCount => exact ⟨_, rfl, of_whenActive .irqCountSet⟩
  | setChDir ch => exact ⟨_, rfl, of_whenActive fun hl => of_withChannel fun c => of_withValue fun d => .dirSet c d hl⟩
  | setTerm ch => exact ⟨_, rfl, of_whenActive fun hl => of_withChannel fun c => of_withValue fun t => .termSet c t hl⟩
  | setBufen ch => exact ⟨_, rfl, of_whenActive fun hl => of_withChannel fun c => of_withValue fun b => .bufEnSet c b hl⟩
  | setEdge => exact ⟨_, rfl, of_whenActive fun hl => of_withValue fun e => .edgeSet e hl⟩
  | setStorage => exact ⟨_, rfl, of_whenActive fun hl => of_withValue fun m => .modeSet m hl⟩
  | setSig =>
    refine ⟨_, rfl, of_whenActive fun hl => ?_⟩
    split
    · exact .failed _ _
    split
    · exact .failed _ _
    · exact of_createSig hl
  | setSigclr =>
    refine ⟨_, rfl, of_whenActive fun hl => ?_⟩
    split
    · exact .failed _ _
    · exact .sigRemoved hl

/-- The effect of a command that answered `t`. -/
theorem CommandEffect.of_exec {i : Instr} {s t : State} (h : exec i s = .next t) : CommandEffect s i t := by
  obtain ⟨u, hu, he⟩ := exec_effect i s
  cases hu.symm.trans h
  exact he

theorem State.whenActive_eq_or (s t : State) : s.whenActive t = t ∨ s.whenActive t = s.refuse .notInitialized :=
  State.whenActive_ind (P := fun u => u = t ∨ u = s.refuse .notInitialized) (.inr rfl) fun _ => .inl rfl

/-- What a decoded word can do: a command's effect, a refusal, or the error of an unsupported status code (R101, R270). -/
theorem runDecoded_cases {d : Decoded} {s t : State} (h : runDecoded d s = .next t) :
    (∃ i, d = .instr i ∧ CommandEffect s i t) ∨ (∃ r, t = s.refuse r) ∨
      (d = .unknownStatusCode ∧ t = s.raiseErr .unknownStatusCode) := by
  cases d with
  | instr i => exact .inl ⟨i, rfl, .of_exec h⟩
  | refuse r =>
    cases h
    exact .inr (.inl ((s.whenActive_eq_or _).elim (⟨_, ·⟩) (⟨_, ·⟩)))
  | unknownStatusCode =>
    cases h
    exact .inr ((s.whenActive_eq_or _).elim (.inr ⟨rfl, ·⟩) (.inl ⟨_, ·⟩))

end Sys2Proof.Machine
end

section
/-! What each agent leaves unchanged, and a step sorted by the agent that takes it (00_scope R15). -/

namespace Sys2Proof.Machine

/-! ## The sequencer's step, by its state -/

section
variable {s : State}

theorem State.isrStep_of_idle (h : s.isr = .idle) : s.isrStep = s := by simp only [State.isrStep, h]

theorem State.isrStep_of_ack (h : s.isr = .ack) : s.isrStep = s.isrAck := by simp only [State.isrStep, h]

theorem State.isrStep_of_harvest {c : Channel} (h : s.isr = .harvest c) : s.isrStep = s.isrHarvest c := by
  simp only [State.isrStep, h]

theorem State.isrStep_of_notify (h : s.isr = .notify) : s.isrStep = s.isrNotify := by simp only [State.isrStep, h]

theorem State.isrStep_of_count (h : s.isr = .count) : s.isrStep = s.isrCount := by simp only [State.isrStep, h]

theorem State.isrStep_of_unassigned {k : Fin 3} (h : s.isr = .unassigned k) :
    s.isrStep = s.markFault .isrStateInvalid := by simp only [State.isrStep, h]

end

/-! ## Frames: the right-hand side names the fields an agent may write, and only those -/

theorem State.isrHarvest_frame (c : Channel) (s : State) :
    s.isrHarvest c =
      { s with
          isr := (s.isrHarvest c).isr, latch := (s.isrHarvest c).latch, transport := (s.isrHarvest c).transport
          draws := (s.isrHarvest c).draws, events := (s.isrHarvest c).events } := by
  rcases s.isrHarvest_cases c with ⟨-, h⟩ | ⟨-, -, h⟩ | ⟨-, -, h⟩ <;> rw [h]

theorem State.isrNotify_frame (s : State) :
    s.isrNotify = { s with isr := .count, events := s.isrNotify.events } := by
  unfold State.isrNotify
  split <;> rfl

/-- The sequencer touches the module, the transport, its own register and the log only; the Count step moves the counter, and an
unassigned code marks the fault (44_isr_sequencer R226, R224, 10_state R35). -/
theorem State.isrStep_cases (s : State) :
    (s.isr = .count ∧ s.isrStep = s.isrCount) ∨
    (∃ k, s.isr = .unassigned k ∧ s.isrStep = s.markFault .isrStateInvalid) ∨
    s.isrStep =
      { s with
          isr := s.isrStep.isr, irqPending := s.isrStep.irqPending, latch := s.isrStep.latch
          transport := s.isrStep.transport, draws := s.isrStep.draws, events := s.isrStep.events } := by
  cases hi : s.isr with
  | idle => exact .inr (.inr (by rw [State.isrStep_of_idle hi]))
  | ack => exact .inr (.inr (by rw [State.isrStep_of_ack hi]; rfl))
  | harvest c => exact .inr (.inr (by rw [State.isrStep_of_harvest hi, State.isrHarvest_frame]))
  | notify => exact .inr (.inr (by rw [State.isrStep_of_notify hi, State.isrNotify_frame]))
  | count => exact .inl ⟨rfl, State.isrStep_of_count hi⟩
  | unassigned k => exact .inr (.inl ⟨k, rfl, State.isrStep_of_unassigned hi⟩)

theorem State.advanceBlock_frame (cur : BlkCursor) (s : State) :
    s.advanceBlock cur =
      { s with
          blk := (s.advanceBlock cur).blk, resp := (s.advanceBlock cur).resp, events := (s.advanceBlock cur).events } := by
  rcases s.advanceBlock_cases cur with ⟨-, h⟩ | ⟨-, h⟩
  · rw [h]; rfl
  · rw [h]

theorem State.finishWait_frame (w : ReadWait) (r : BufAnswer) (s : State) :
    s.finishWait w r =
      { s with
          rdWait := (s.finishWait w r).rdWait, stuck := (s.finishWait w r).stuck, hmem := (s.finishWait w r).hmem
          resp := (s.finishWait w r).resp, events := (s.finishWait w r).events } := by
  rcases s.finishWait_cases w r with ⟨_, -, h⟩ | ⟨_, -, -, h⟩ | ⟨_, -, -, h⟩ <;> rw [h] <;> rfl

/-- A turn of the call context inside a block command writes no configuration, no mark and no register of the sequencer. -/
theorem callStep_frame {s t : State} (h : callStep s = .next t) :
    t =
      { s with
          blk := t.blk, rdWait := t.rdWait, stuck := t.stuck, latch := t.latch, outReg := t.outReg, hmem := t.hmem
          resp := t.resp, draws := t.draws, events := t.events } := by
  rcases callStep_cases s with ⟨-, hc⟩ | ⟨-, cur, -, hc⟩ | ⟨-, -, cap, addr, r, -, hc⟩ <;> rw [hc] at h
  · cases h
    rfl
  · rcases transferStep_cases cur s with ⟨-, ht⟩ | ⟨c, -, -, ht⟩ | ⟨c, -, -, ht⟩ <;> rw [ht] at h <;> cases h
    · rfl
    · rw [State.advanceBlock_frame, State.transferByte_frame]
  · cases h
    rw [State.finishWait_frame]

/-- The environment writes the latches, the pending condition, the host buffer, its own answers and a waiting read only. -/
theorem State.envMove_frame (m : EnvMove) (s : State) :
    s.envMove m =
      { s with
          irqPending := (s.envMove m).irqPending, rdWait := (s.envMove m).rdWait, latch := (s.envMove m).latch
          hmem := (s.envMove m).hmem, env := (s.envMove m).env, draws := (s.envMove m).draws
          events := (s.envMove m).events } := by
  cases m with
  | transition p =>
    simp only [State.envMove]
    split <;> rfl
  | bufAnswer a =>
    simp only [State.envMove, State.takeBufAnswer]
    split
    · split <;> rfl
    · rfl
    · rfl
  | hostStore a v =>
    simp only [State.envMove, State.hostStore]
    split <;> rfl
  | edge | pins | idOk | allocOk | transportOk | sigOk | slotFree => rfl

/-! ## A step by its agent -/

/-- The interrupt entry port takes SERVICE_IRQ and refuses every other word (30_encoding R101). -/
theorem decode_interrupt_cases (w : Word) :
    decode .interrupt w = .instr .serviceIrq ∨ ∃ r, decode .interrupt w = .refuse r := by
  unfold decode
  split
  · exact .inr ⟨_, rfl⟩
  dsimp only
  split
  · exact .inl rfl
  · exact .inr ⟨_, rfl⟩

/-- The only API call presented on the interrupt entry port is the interrupt service (30_encoding R104). -/
theorem ApiCall.port_eq_command_or (a : ApiCall) : a.instr.port = .command ∨ a.instr = .serviceIrq := by
  cases a with
  | serviceInterrupt => exact .inr rfl
  | _ => exact .inl rfl

/-- Whose step it is: the sequencer's, the dispatch's, the call context's inside a block command, the environment's, or that of a
word taken with the ISR idle, which is a command's only between two commands. -/
theorem step_agent_cases (s : State) :
    (s.isr ≠ .idle ∧ ∃ l, step s = .next ({ s with inbox := l } : State).isrStep) ∨
    (s.isr = .idle ∧ s.life = .active ∧ ∃ l, step s = .next ({ s with inbox := l } : State).enterIsr) ∨
    (s.isr = .idle ∧ ∃ l, step s = callStep { s with inbox := l }) ∨
    (∃ m l, step s = .next (({ s with inbox := l } : State).envMove m)) ∨
    (s.isr = .idle ∧ ∃ d l p, (s.callReady = true ∨ d = .instr .serviceIrq ∨ ∃ r, d = .refuse r) ∧
      step s = runDecoded d { s with inbox := l, port := p }) := by
  have ready : s.callBoundary = true → s.isr = .idle ∧ s.callReady = true := by simp [State.callBoundary]
  rcases step_cases s with ⟨l, -, h⟩ | ⟨l, -, hi, h⟩ | ⟨m, l, -, h⟩ | ⟨p, l, -, hb, h⟩ | ⟨w, l, -, hi, h⟩ |
    ⟨a, l, -, hi, hb, h⟩
  · rcases ownStep_cases { s with inbox := l } with ⟨hi, ho⟩ | ⟨hi, hl, -, ho⟩ | ⟨hi, -, ho⟩
    · exact .inl ⟨hi, l, h.trans ho⟩
    · exact .inr (.inl ⟨hi, hl, l, h.trans ho⟩)
    · exact .inr (.inr (.inl ⟨hi, l, h.trans ho⟩))
  · exact .inr (.inr (.inl ⟨hi, l, h⟩))
  · exact .inr (.inr (.inr (.inl ⟨m, l, h⟩)))
  · exact .inr (.inr (.inr (.inr ⟨(ready hb).1, _, l, p, .inl (ready hb).2, h⟩)))
  · exact .inr (.inr (.inr (.inr ⟨hi, _, l, s.port, .inr (decode_interrupt_cases w), h⟩)))
  · have hd : s.callReady = true ∨ Decoded.instr a.instr = .instr .serviceIrq ∨ ∃ r, Decoded.instr a.instr = .refuse r :=
      a.port_eq_command_or.imp (fun hp => (ready (hb hp)).2) fun hs => .inl (by rw [hs])
    exact .inr (.inr (.inr (.inr ⟨hi, .instr a.instr, l, _, hd, h⟩)))

end Sys2Proof.Machine
end

section
/-! The rules about every step that need no invariant: the sticky marks (R42), the counter (R33), the running ISR (R45). -/

namespace Sys2Proof.Machine

/-! ## The sticky marks -/

/-- `t` has the marks of `s` with their reasons (10_state R42). -/
def State.KeepsMarks (s t : State) : Prop :=
  (∀ r, s.refused = some r → t.refused = some r) ∧ (∀ r, s.faulted = some r → t.faulted = some r)

theorem State.keepsMarks_of_eq {s t : State} (hr : t.refused = s.refused) (hf : t.faulted = s.faulted) : s.KeepsMarks t :=
  ⟨fun _ h => hr.trans h, fun _ h => hf.trans h⟩

theorem State.refuse_keepsMarks (r : RefuseReason) (s : State) : s.KeepsMarks (s.refuse r) :=
  ⟨fun _ h => State.refuse_refused_of_some h r, fun _ h => h⟩

theorem State.markFault_keepsMarks (r : FaultReason) (s : State) : s.KeepsMarks (s.markFault r) :=
  ⟨fun _ h => h, fun _ h => State.markFault_faulted_of_some h r⟩

theorem CommandEffect.keepsMarks {s t : State} {i : Instr} (h : CommandEffect s i t) : s.KeepsMarks t := by
  cases h with
  | gated | alreadyActive => exact s.refuse_keepsMarks _
  | badChannel => exact s.markFault_keepsMarks _
  | _ => exact State.keepsMarks_of_eq rfl rfl

theorem runDecoded_keepsMarks {d : Decoded} {s t : State} (h : runDecoded d s = .next t) : s.KeepsMarks t := by
  rcases runDecoded_cases h with ⟨i, -, he⟩ | ⟨r, rfl⟩ | ⟨-, rfl⟩
  · exact he.keepsMarks
  · exact s.refuse_keepsMarks r
  · exact State.keepsMarks_of_eq rfl rfl

theorem State.isrStep_keepsMarks (s : State) : s.KeepsMarks s.isrStep := by
  rcases s.isrStep_cases with ⟨-, h⟩ | ⟨k, -, h⟩ | h <;> rw [h]
  · exact State.keepsMarks_of_eq rfl rfl
  · exact s.markFault_keepsMarks _
  · exact State.keepsMarks_of_eq rfl rfl

theorem callStep_keepsMarks {s t : State} (h : callStep s = .next t) : s.KeepsMarks t := by
  rw [callStep_frame h]
  exact State.keepsMarks_of_eq rfl rfl

theorem State.envMove_keepsMarks (m : EnvMove) (s : State) : s.KeepsMarks (s.envMove m) := by
  rw [State.envMove_frame]
  exact State.keepsMarks_of_eq rfl rfl

/-! ## The counter -/

/-- What a command does to the counter: SET.IRQ_COUNT writes its value, INIT writes 0, no other command moves it. -/
theorem CommandEffect.irqCount {s t : State} {i : Instr} (h : CommandEffect s i t) :
    t.irqCount = s.irqCount ∨ (i = .setIrqCount ∧ t.irqCount = s.port.val) ∨ (i = .init ∧ t.irqCount = 0) := by
  cases h with
  | irqCountSet => exact .inr (.inl ⟨rfl, rfl⟩)
  | programmed => exact .inr (.inr ⟨rfl, rfl⟩)
  | _ => exact .inl rfl

theorem runDecoded_irqCount {d : Decoded} {s t : State} (h : runDecoded d s = .next t) :
    t.irqCount = s.irqCount ∨ (d = .instr .setIrqCount ∧ t.irqCount = s.port.val) ∨
      (d = .instr .init ∧ t.irqCount = 0) := by
  rcases runDecoded_cases h with ⟨i, rfl, he⟩ | ⟨r, rfl⟩ | ⟨-, rfl⟩
  · simpa only [Decoded.instr.injEq] using he.irqCount
  · exact .inl rfl
  · exact .inl rfl

theorem callStep_irqCount {s t : State} (h : callStep s = .next t) : t.irqCount = s.irqCount := by
  rw [callStep_frame h]

theorem State.envMove_irqCount (m : EnvMove) (s : State) : (s.envMove m).irqCount = s.irqCount := by
  rw [State.envMove_frame]

theorem ownStep_irqCount {s t : State} (h : ownStep s = .next t) :
    t.irqCount = s.irqCount ∨ (s.isr = .count ∧ t.irqCount = s.irqCount + 1) := by
  rcases ownStep_cases s with ⟨-, ho⟩ | ⟨-, -, -, ho⟩ | ⟨-, -, ho⟩ <;> rw [ho] at h
  · cases h
    rcases s.isrStep_cases with ⟨hi, hs⟩ | ⟨k, -, hs⟩ | hs
    · exact .inr ⟨hi, by rw [hs]; rfl⟩
    · exact .inl (by rw [hs]; rfl)
    · exact .inl (by rw [hs])
  · cases h
    exact .inl rfl
  · exact .inl (callStep_irqCount h)

theorem ApiCall.instr_ne_setIrqCount (a : ApiCall) : a.instr ≠ .setIrqCount := by cases a <;> nofun

theorem ApiCall.eq_initialise_of_instr {a : ApiCall} (h : a.instr = .init) : ∃ cfg, a = .initialise cfg := by
  cases a with
  | initialise cfg => exact ⟨cfg, rfl⟩
  | _ => cases h

/-! ## The running ISR -/

/-- `t` has the configuration, the call context's registers and the output registers of `s` (10_state R45,
44_isr_sequencer R226). -/
def State.SameConfiguration (s t : State) : Prop :=
  t.store = s.store ∧ t.irqEnable = s.irqEnable ∧ t.sigTarget = s.sigTarget ∧ t.debugLevel = s.debugLevel ∧
    t.resp = s.resp ∧ t.blk = s.blk ∧ t.stuck = s.stuck ∧ t.outReg = s.outReg ∧ t.life = s.life ∧ t.port = s.port ∧
    t.refused = s.refused ∧ t.params = s.params

theorem State.isrStep_sameConfiguration (s : State) : s.SameConfiguration s.isrStep := by
  rcases s.isrStep_cases with ⟨-, h⟩ | ⟨k, -, h⟩ | h <;> rw [h] <;>
    exact ⟨rfl, rfl, rfl, rfl, rfl, rfl, rfl, rfl, rfl, rfl, rfl, rfl⟩

theorem State.envMove_sameConfiguration (m : EnvMove) (s : State) : s.SameConfiguration (s.envMove m) := by
  rw [State.envMove_frame]
  exact ⟨rfl, rfl, rfl, rfl, rfl, rfl, rfl, rfl, rfl, rfl, rfl, rfl⟩

end Sys2Proof.Machine

namespace Sys2Proof.Claims
open Sys2Proof.Machine

/-- Settles O59: the agents that may set a mark set it through `refuse` or `markFault`, which keep the first reason. -/
theorem marksAreSticky : Obligations.MarksAreSticky := by
  intro s t h
  rcases step_agent_cases s with ⟨-, l, hs⟩ | ⟨-, -, l, hs⟩ | ⟨-, l, hs⟩ | ⟨m, l, hs⟩ |
    ⟨-, d, l, p, -, hs⟩ <;> rw [hs] at h
  · cases h
    exact State.isrStep_keepsMarks { s with inbox := l }
  · cases h
    exact State.keepsMarks_of_eq rfl rfl
  · exact callStep_keepsMarks (s := { s with inbox := l }) h
  · cases h
    exact State.envMove_keepsMarks m { s with inbox := l }
  · exact runDecoded_keepsMarks (s := { s with inbox := l, port := p }) h

/-- Settles O43: the Count step of the sequencer and the two commands are the only writers, and the input that holds the command is
the one at the head of the line-up. -/
theorem counterMovesByServicesAndCommands : Obligations.CounterMovesByServicesAndCommands := by
  intro s t h
  rcases step_cases s with ⟨l, -, hs⟩ | ⟨l, -, -, hs⟩ | ⟨m, l, -, hs⟩ | ⟨p, l, hx, hb, hs⟩ | ⟨w, l, -, -, hs⟩ |
    ⟨a, l, hx, hi, -, hs⟩ <;> rw [hs] at h
  · exact (ownStep_irqCount h).imp_right .inl
  · exact .inl (callStep_irqCount (s := { s with inbox := l }) h)
  · cases h
    exact .inl (State.envMove_irqCount m { s with inbox := l })
  · obtain ⟨hi, -⟩ : s.isr = .idle ∧ s.callReady = true := by simpa [State.callBoundary] using hb
    exact (runDecoded_irqCount h).imp_right fun hw => .inr ⟨hi, .inl ⟨p, l, hx, hw⟩⟩
  · rcases decode_interrupt_cases w with hd | ⟨r, hd⟩ <;> rw [hd] at h <;>
      exact (runDecoded_irqCount h).imp_right (by simp)
  · rcases (CommandEffect.of_exec h).irqCount with hc | ⟨hn, -⟩ | ⟨hn, hc⟩
    · exact .inl hc
    · exact absurd hn a.instr_ne_setIrqCount
    · obtain ⟨cfg, rfl⟩ := ApiCall.eq_initialise_of_instr hn
      exact .inr (.inr ⟨hi, .inr ⟨cfg, l, hx, hc⟩⟩)

/-- Settles O40: while the ISR runs, only the sequencer and the environment take a step. -/
theorem isrWritesNoConfiguration : Obligations.IsrWritesNoConfiguration := by
  intro s t hisr h
  rcases step_agent_cases s with ⟨-, l, hs⟩ | ⟨hi, -⟩ | ⟨hi, -⟩ | ⟨m, l, hs⟩ | ⟨hi, -⟩
  · cases hs.symm.trans h
    exact State.isrStep_sameConfiguration { s with inbox := l }
  · exact absurd hi hisr
  · exact absurd hi hisr
  · cases hs.symm.trans h
    exact State.envMove_sameConfiguration m { s with inbox := l }
  · exact absurd hi hisr

end Sys2Proof.Claims
end

section
/-! The invariant of Safety.lean: it holds at reset, and every agent's step keeps it. -/

namespace Sys2Proof.Machine

/-! ## Sizes -/

/-- No channel is selected in both directions, so the two selections share the four channels (10_state R44). -/
theorem Store.sel_lengths_le (st : Store) : (st.sel .input).length + (st.sel .output).length ≤ 4 := by
  have hdisjoint : ∀ c, st.elig .output c = true → (!st.elig .input c) = true := by
    simp +contextual [Store.elig]
  calc (st.sel .input).length + (st.sel .output).length
      ≤ (st.sel .input).length + (Channel.all.filter (!st.elig .input ·)).length :=
        Nat.add_le_add_left (List.monotone_filter_right Channel.all hdisjoint).length_le _
    _ = 4 := (List.length_eq_length_filter_add (st.elig .input)).symm

/-- A recomputed store's sizes count its selections (40_config_store R121). -/
theorem State.sizesCount_of_recompute {t : State} {st : Store} (h : t.store = st.recompute) : t.SizesCount := by
  rw [State.SizesCount, h]
  exact ⟨st.recompute_readSize, st.recompute_writeSize⟩

theorem State.SizesCount.size_eq {s : State} (h : s.SizesCount) (op : BlkOp) :
    (op.size s.store).toNat = (s.store.sel op.direction).length := by
  cases op with
  | blkread => exact h.1
  | blkwrite => exact h.2

/-! ## States the invariant does not tell apart, and states with the call context free -/

theorem State.callReady_iff {s : State} : s.callReady = true ↔ s.blk = none ∧ s.rdWait = none ∧ s.stuck = false := by
  simp [State.callReady, and_assoc]

theorem State.UninitQuiet.of_active {s : State} (hl : s.life = .active) : s.UninitQuiet := fun hu => by
  cases hl.symm.trans hu

theorem State.CursorSound.of_free {s : State} (hb : s.blk = none) : s.CursorSound := fun cur hcur => by
  cases hb.symm.trans hcur

namespace State.Inv

variable {s t : State}

/-- The invariant does not look at these fields. -/
theorem frame {irqPending irqCount debugLevel latch outReg faulted refused resp port env board draws events inbox} (h : s.Inv) :
    State.Inv
      { s with
          irqPending := irqPending, irqCount := irqCount, debugLevel := debugLevel, latch := latch, outReg := outReg
          faulted := faulted, refused := refused, resp := resp, port := port, env := env, board := board, draws := draws
          events := events, inbox := inbox } :=
  ⟨h.sizes, h.memory, h.cursor, h.wait, h.quiet, h.assigned⟩

/-- With the call context free and the ISR idle, what is left of the invariant is the sizes, the memory's form and the interrupt
part of a quiet Uninit instance. -/
theorem of_free (hc : t.callReady = true) (hi : t.isr = .idle) (hz : t.SizesCount) (hm : Memory.wf t.hmem = true)
    (hq : t.life = .uninit → t.irqEnable = false ∧ t.sigTarget = 0) : t.Inv := by
  obtain ⟨hb, hw, hs⟩ := State.callReady_iff.mp hc
  exact
    { sizes := hz
      memory := hm
      cursor := .of_free hb
      wait := fun w h => by simp [hw] at h
      quiet := fun hl => ⟨(hq hl).1, (hq hl).2, hi, hb, hw, hs⟩
      assigned := fun k => by simp [hi] }

theorem active_of_isr (h : s.Inv) (hi : s.isr ≠ .idle) : s.life = .active := by
  cases hl : s.life with
  | active => rfl
  | uninit =>
    obtain ⟨-, -, hidle, -⟩ := h.quiet hl
    exact absurd hidle hi

end State.Inv

theorem reset_inv : State.reset.Inv :=
  .of_free rfl rfl (by unfold State.SizesCount; decide) reset_hmem_wf fun _ => ⟨rfl, rfl⟩

/-! ## Commands -/

theorem State.Inv.refuse {s : State} (h : s.Inv) (r : RefuseReason) : (s.refuse r).Inv := h.frame

theorem State.Inv.markFault {s : State} (h : s.Inv) (r : FaultReason) : (s.markFault r).Inv := h.frame

/-- Entering the ISR of an Active instance. -/
theorem State.Inv.enterIsr {s : State} (h : s.Inv) (hl : s.life = .active) : s.enterIsr.Inv :=
  { h with quiet := .of_active hl, assigned := nofun }

/-- The cursor a check step fixes is sound: the size it checked is the length of the selection (43_block_io R191, R200). -/
theorem State.Inv.startCursor {s : State} {op : BlkOp} {ev : List Event} (h : s.Inv) (hc : s.callReady = true)
    (hl : s.life = .active) (hz : op.size s.store ≠ 0) (ha : hmemAdmits s.params s.port.addr (op.size s.store).toNat = true) :
    State.Inv
      { s with
          blk := some { op := op, chans := s.store.sel op.direction, k := 0, addr := s.port.addr }
          events := ev } := by
  obtain ⟨-, hw, hs⟩ := State.callReady_iff.mp hc
  have hlen := h.sizes.size_eq op
  have hpos : 0 < (s.store.sel op.direction).length := by
    rw [← hlen]
    exact Nat.pos_of_ne_zero fun h0 => hz (BitVec.eq_of_toNat_eq h0)
  exact
    { h with
      cursor := fun cur hcur => by
        cases hcur
        exact ⟨hl, rfl, hpos, hlen ▸ ha, hw, hs⟩
      quiet := .of_active hl }

theorem State.Inv.startWait {s : State} (h : s.Inv) (hc : s.callReady = true) (hl : s.life = .active)
    (hm : s.transport.mode ≠ .userControlled) : s.startWait.Inv := by
  obtain ⟨hb, -, -⟩ := State.callReady_iff.mp hc
  exact
    { h with
      cursor := .of_free hb
      wait := fun w hw => by
        cases hw
        exact ⟨hl, hm, nofun⟩
      quiet := .of_active hl }

theorem State.Inv.stick {s : State} (h : s.Inv) (hb : s.blk = none) (hl : s.life = .active) :
    State.Inv { s with stuck := true } :=
  { h with cursor := .of_free hb, quiet := .of_active hl }

/-- A command keeps the invariant; all but SERVICE_IRQ run with the call context free only. -/
theorem CommandEffect.inv {s t : State} {i : Instr} (h : CommandEffect s i t) (hs : s.Inv) (hi : s.isr = .idle)
    (hc : s.callReady = true ∨ i = .serviceIrq) : t.Inv := by
  have free {P : Prop} (hne : i ≠ .serviceIrq) (hP : s.callReady = true → P) : P := hP (hc.resolve_right hne)
  have active {P : Prop} (hl : s.life = .active) (hu : s.life = .uninit) : P := by cases hl.symm.trans hu
  cases h with
  | gated | alreadyActive => exact hs.refuse _
  | badChannel => exact hs.markFault _
  | failed | failedAfterDraw | answered | portRead | portWritten | debugLevelSet | irqCountSet => exact hs.frame
  | notEntered => exact hs
  | entered hl => exact hs.enterIsr hl
  | programmed v hl =>
    exact .of_free rfl rfl (State.sizesCount_of_recompute rfl) hs.memory nofun
  | shutDown hl =>
    exact free nofun fun hc => .of_free hc hi (State.sizesCount_of_recompute rfl) hs.memory fun _ => ⟨rfl, rfl⟩
  | blockStarted op hl hz ha => exact free (by cases op <;> nofun) fun hc => hs.startCursor hc hl hz ha
  | blockStuck op hl => exact free (by cases op <;> nofun) fun hc => hs.stick (State.callReady_iff.mp hc).1 hl
  | readWaits hl hm => exact free nofun fun hc => hs.startWait hc hl hm
  | dirSet c d hl | bufEnSet c b hl =>
    exact free nofun fun hc => .of_free hc hi (State.sizesCount_of_recompute rfl) hs.memory (active hl)
  | termSet c t hl | edgeSet e hl | modeSet m hl | irqEnableSet b hl | sigCreated hl | sigRemoved hl =>
    exact free nofun fun hc => .of_free hc hi hs.sizes hs.memory (active hl)

theorem runDecoded_inv {d : Decoded} {s t : State} (h : runDecoded d s = .next t) (hs : s.Inv) (hi : s.isr = .idle)
    (hd : s.callReady = true ∨ d = .instr .serviceIrq ∨ ∃ r, d = .refuse r) : t.Inv := by
  rcases runDecoded_cases h with ⟨i, rfl, he⟩ | ⟨r, rfl⟩ | ⟨-, rfl⟩
  · exact he.inv hs hi (by simpa using hd)
  · exact hs.refuse r
  · exact hs.frame

/-! ## The sequencer -/

/-- An answer the transport may give stays one when more bytes have been put (20_memory R67). -/
theorem BufAnswer.admissible_mono {a : BufAnswer} {cap : Word} {l l' : List Byte} (hl : ∀ b ∈ l, b ∈ l')
    (h : a.admissible cap l = true) : a.admissible cap l' = true := by
  cases a with
  | err code => rfl
  | bytes m =>
    simp only [BufAnswer.admissible, Bool.and_eq_true, decide_eq_true_eq, List.all_eq_true] at h ⊢
    exact ⟨h.1, fun b hb => hl b (h.2 b hb)⟩

/-- The sequencer of an Active instance moves on, and the transport's history grows. -/
theorem State.Inv.sequence {s : State} {isr : IsrState} {l : List Byte} {acquired : Nat} (h : s.Inv) (hl : s.life = .active)
    (hi : ∀ k, isr ≠ .unassigned k) :
    State.Inv
      { s with isr := isr, transport := { s.transport with ready := s.transport.ready ++ l, acquired := acquired } } :=
  { h with
    wait := fun w hw => by
      obtain ⟨-, hm, ha⟩ := h.wait w hw
      exact ⟨hl, hm, fun a haw => BufAnswer.admissible_mono (fun _ => List.mem_append_left l) (ha a haw)⟩
    quiet := .of_active hl
    assigned := hi }

theorem State.Inv.setIsr {s : State} (h : s.Inv) (isr : IsrState) (hl : s.life = .active) (hi : ∀ k, isr ≠ .unassigned k) :
    State.Inv { s with isr := isr } := by
  simpa using h.sequence (l := []) (acquired := s.transport.acquired) hl hi

theorem IsrState.afterHarvest_ne_unassigned (c : Channel) (k : Fin 3) : IsrState.afterHarvest c ≠ .unassigned k := by
  cases c <;> nofun

theorem State.Inv.isrStep {s : State} (h : s.Inv) (hi : s.isr ≠ .idle) : s.isrStep.Inv := by
  have hl := h.active_of_isr hi
  cases hs : s.isr with
  | idle => exact absurd hs hi
  | ack =>
    rw [State.isrStep_of_ack hs]
    exact (h.setIsr (.harvest .ch0) hl fun _ => nofun).frame
  | harvest c =>
    rw [State.isrStep_of_harvest hs]
    rcases s.isrHarvest_cases c with ⟨-, hh⟩ | ⟨-, -, hh⟩ | ⟨-, -, hh⟩ <;> rw [hh]
    · exact h.setIsr _ hl (IsrState.afterHarvest_ne_unassigned c)
    · exact (h.sequence hl (IsrState.afterHarvest_ne_unassigned c)).frame
    · exact (h.setIsr .notify hl fun _ => nofun).frame
  | notify =>
    rw [State.isrStep_of_notify hs, State.isrNotify_frame]
    exact (h.setIsr .count hl fun _ => nofun).frame
  | count =>
    rw [State.isrStep_of_count hs]
    exact (h.setIsr .idle hl fun _ => nofun).frame
  | unassigned k => exact absurd hs (h.assigned k)

/-! ## The call context inside a block command -/

theorem State.Inv.setMemory {s : State} {m : Memory} (h : s.Inv) (hm : Memory.wf m = true) : State.Inv { s with hmem := m } :=
  { h with memory := hm }

theorem State.Inv.transferByte {s : State} (h : s.Inv) (op : BlkOp) (c : Channel) (a : Nat) : (s.transferByte op c a).Inv := by
  cases op with
  | blkread => exact (h.setMemory (memSet_wf h.memory a (s.portValue c))).frame
  | blkwrite => exact h.frame

theorem State.Inv.advanceBlock {s : State} {cur : BlkCursor} (h : s.Inv) (hb : s.blk = some cur) : (s.advanceBlock cur).Inv := by
  obtain ⟨hl, hsel, hk, ha, hw, hs⟩ := h.cursor cur hb
  rcases s.advanceBlock_cases cur with ⟨-, hadv⟩ | ⟨hne, hadv⟩ <;> rw [hadv]
  · exact { h with cursor := .of_free rfl, quiet := .of_active hl }
  · exact
      { h with
        cursor := fun cur' hcur => by
          cases hcur
          exact ⟨hl, hsel, Nat.lt_of_le_of_ne hk hne, ha, hw, hs⟩
        quiet := .of_active hl }

theorem State.Inv.finishWait {s : State} {w : ReadWait} (h : s.Inv) (hb : s.blk = none) (hw : s.rdWait = some w) (r : BufAnswer) :
    (s.finishWait w r).Inv := by
  obtain ⟨hl, -⟩ := h.wait w hw
  have done : State.Inv { s with rdWait := none } :=
    { h with cursor := .of_free hb, wait := nofun, quiet := .of_active hl }
  rcases s.finishWait_cases w r with ⟨code, -, hf⟩ | ⟨l, -, -, hf⟩ | ⟨l, -, -, hf⟩ <;> rw [hf]
  · exact done.frame
  · exact (done.setMemory (memSetList_wf h.memory w.addr.toNat l)).frame
  · exact h.stick hb hl

theorem callStep_inv {s t : State} (h : callStep s = .next t) (hs : s.Inv) : t.Inv := by
  rcases callStep_cases s with ⟨-, hc⟩ | ⟨-, cur, hb, hc⟩ | ⟨-, hb, cap, addr, r, hw, hc⟩ <;> rw [hc] at h
  · cases h
    exact hs
  · rcases transferStep_cases cur s with ⟨-, ht⟩ | ⟨c, -, -, ht⟩ | ⟨c, -, -, ht⟩ <;> rw [ht] at h <;> cases h
    · exact hs
    · exact (hs.transferByte cur.op c _).advanceBlock (by rw [State.transferByte_frame]; exact hb)
  · cases h
    exact hs.finishWait hb hw r

/-! ## The environment -/

/-- The transport's answer is taken only where it keeps the contract (20_memory R67). -/
theorem State.Inv.takeBufAnswer {s : State} (h : s.Inv) (a : BufAnswer) : (s.takeBufAnswer a).Inv := by
  unfold State.takeBufAnswer
  split
  · next cap addr hw =>
    split
    · next ha =>
      obtain ⟨hl, hm, -⟩ := h.wait _ hw
      exact
        { h with
          cursor := fun cur hcur => by
            obtain ⟨-, -, -, -, hnone, -⟩ := h.cursor cur hcur
            cases hw.symm.trans hnone
          wait := fun w hw' => by
            cases hw'
            refine ⟨hl, hm, fun b hb => ?_⟩
            cases hb
            exact ha
          quiet := .of_active hl }
    · exact h
  · exact h
  · exact h

theorem State.Inv.envMove {s : State} (h : s.Inv) (m : EnvMove) : (s.envMove m).Inv := by
  cases m with
  | transition p =>
    unfold State.envMove
    dsimp only
    split
    · exact h.frame
    · exact h
  | bufAnswer a => exact h.takeBufAnswer a
  | hostStore a v =>
    unfold State.envMove State.hostStore
    dsimp only
    split
    · exact h.setMemory (memSet_wf h.memory _ v)
    · exact h
  | edge | pins | idOk | allocOk | transportOk | sigOk | slotFree => exact h.frame

end Sys2Proof.Machine

namespace Sys2Proof.Claims
open Sys2Proof.Machine

/-- Settles O53: at reset the call context is free and the ISR idle. -/
theorem resetMeetsTheInvariant : Obligations.ResetMeetsTheInvariant := reset_inv

/-- Settles O56: the sizes count two selections with no channel in common. -/
theorem sizesWithinFour : Obligations.SizesWithinFour := by
  intro s ⟨hr, hw⟩
  rw [hr, hw]
  exact s.store.sel_lengths_le

/-- Settles O54, agent by agent. -/
theorem stepKeepsTheInvariant : Obligations.StepKeepsTheInvariant := by
  intro s t hs h
  have hin (l : List Input) : State.Inv { s with inbox := l } := hs.frame
  rcases step_agent_cases s with ⟨hi, l, hn⟩ | ⟨-, hl, l, hn⟩ | ⟨-, l, hn⟩ | ⟨m, l, hn⟩ |
    ⟨hi, d, l, p, hd, hn⟩ <;> rw [hn] at h
  · cases h
    exact (hin l).isrStep hi
  · cases h
    exact (hin l).enterIsr hl
  · exact callStep_inv h (hin l)
  · cases h
    exact (hin l).envMove m
  · exact runDecoded_inv h hs.frame hi hd

end Sys2Proof.Claims
end

section
/-! The pending condition (42_storage_mode_latch R178, 60_exceptions R315): which steps of an Active instance keep it. -/

namespace Sys2Proof.Machine

/-- Only INIT writes the pending condition, and an Active instance refuses INIT (46_host_surface R270). -/
theorem CommandEffect.irqPending {s t : State} {i : Instr} (h : CommandEffect s i t) (hl : s.life = .active) :
    t.irqPending = s.irqPending := by
  cases h with
  | programmed v hu => cases hl.symm.trans hu
  | _ => rfl

theorem runDecoded_irqPending {d : Decoded} {s t : State} (h : runDecoded d s = .next t) (hl : s.life = .active) :
    t.irqPending = s.irqPending := by
  rcases runDecoded_cases h with ⟨i, -, he⟩ | ⟨r, rfl⟩ | ⟨-, rfl⟩
  · exact he.irqPending hl
  · rfl
  · rfl

theorem callStep_irqPending {s t : State} (h : callStep s = .next t) : t.irqPending = s.irqPending := by
  rw [callStep_frame h]

theorem State.isrStep_irqPending {s : State} (h : s.isr ≠ .ack) : s.isrStep.irqPending = s.irqPending := by
  cases hi : s.isr with
  | idle => rw [State.isrStep_of_idle hi]
  | ack => exact absurd hi h
  | harvest c => rw [State.isrStep_of_harvest hi, State.isrHarvest_frame]
  | notify => rw [State.isrStep_of_notify hi, State.isrNotify_frame]
  | count => rw [State.isrStep_of_count hi]; rfl
  | unassigned k => rw [State.isrStep_of_unassigned hi]; rfl

/-- An edge sets the pending condition or leaves it; no other move of the environment writes it (R177). -/
theorem State.envMove_irqPending {s : State} (h : s.irqPending = true) (m : EnvMove) : (s.envMove m).irqPending = true := by
  have edge : s.edgeEvent.irqPending = true := by simp [h]
  cases m with
  | edge => exact edge
  | transition p =>
    simp only [State.envMove]
    split
    · exact edge
    · exact h
  | bufAnswer a =>
    simp only [State.envMove, State.takeBufAnswer]
    split
    · split <;> exact h
    · exact h
    · exact h
  | hostStore a v =>
    simp only [State.envMove, State.hostStore]
    split <;> exact h
  | pins | idOk | allocOk | transportOk | sigOk | slotFree => exact h

end Sys2Proof.Machine

namespace Sys2Proof.Claims
open Sys2Proof.Machine

/-- Settles O42, agent by agent. -/
theorem onlyAckClearsPending : Obligations.OnlyAckClearsPending := by
  intro s t hl hp hack h
  rcases step_agent_cases s with ⟨-, l, hs⟩ | ⟨-, -, l, hs⟩ | ⟨-, l, hs⟩ | ⟨m, l, hs⟩ |
    ⟨-, d, l, p, -, hs⟩ <;> rw [hs] at h
  · cases h
    exact (State.isrStep_irqPending (s := { s with inbox := l }) hack).trans hp
  · cases h
    exact hp
  · exact (callStep_irqPending h).trans hp
  · cases h
    exact State.envMove_irqPending (s := { s with inbox := l }) hp m
  · exact (runDecoded_irqPending h hl).trans hp

end Sys2Proof.Claims
end

section
/-! Progress (20_memory R62): an agent's step can fault at a missing host byte only, and the cursor of a state with the invariant
points to none. -/

namespace Sys2Proof.Machine

/-- The next byte of a block command in flight exists (43_block_io R191, R200). -/
theorem State.CursorSound.nextByte_exists {s : State} {cur : BlkCursor} (h : s.CursorSound) (hb : s.blk = some cur) :
    hmemExists s.params (cur.addr.toNat + cur.k) = true := by
  obtain ⟨-, -, hk, ha, -⟩ := h cur hb
  exact hmemAdmits_iff.mp ha cur.k hk

theorem callStep_next {s : State} (h : s.CursorSound) : ∃ t, callStep s = .next t := by
  rcases callStep_cases s with ⟨-, hc⟩ | ⟨-, cur, hb, hc⟩ | ⟨-, -, cap, addr, r, -, hc⟩
  · exact ⟨_, hc⟩
  · rcases transferStep_cases cur s with ⟨-, ht⟩ | ⟨c, -, -, ht⟩ | ⟨c, -, hx, -⟩
    · exact ⟨_, hc.trans ht⟩
    · exact ⟨_, hc.trans ht⟩
    · cases hx.symm.trans (h.nextByte_exists hb)
  · exact ⟨_, hc⟩

end Sys2Proof.Machine

namespace Sys2Proof.Claims
open Sys2Proof.Machine

/-- Settles O55: every agent but the call context has a next state from every state. -/
theorem invariantStatesStep : Obligations.InvariantStatesStep := by
  intro s hs
  rcases step_agent_cases s with ⟨-, l, h⟩ | ⟨-, -, l, h⟩ | ⟨-, l, h⟩ | ⟨m, l, h⟩ | ⟨-, d, l, p, -, h⟩
  · exact ⟨_, h⟩
  · exact ⟨_, h⟩
  · rw [h]
    exact callStep_next (s := { s with inbox := l }) hs.cursor
  · exact ⟨_, h⟩
  · rw [h]
    exact runDecoded_next d _

end Sys2Proof.Claims
end

section
/-! An input that may not be taken yet is held, and the block's own agents move (20_memory R82, R83, log 3). -/

namespace Sys2Proof.Machine

section
variable {s : State} {rest : List Input}

theorem State.callBoundary_eq_false (h : s.isr ≠ .idle ∨ s.blk ≠ none ∨ s.rdWait ≠ none ∨ s.stuck = true) :
    s.callBoundary = false := by
  refine Bool.eq_false_iff.mpr fun hb => ?_
  obtain ⟨hi, hc⟩ : s.isr = .idle ∧ s.callReady = true := by simpa [State.callBoundary] using hb
  obtain ⟨hblk, hwait, hstuck⟩ := State.callReady_iff.mp hc
  simp [hi, hblk, hwait, hstuck] at h

theorem step_of_command_held {p : CommandPort} (hx : s.inbox = .command p :: rest) (hb : s.callBoundary = false) :
    step s = ownStep s := by simp [step, inboxStep, hx, hb]

theorem step_of_api_held {a : ApiCall} (hx : s.inbox = .api a :: rest) (ha : a.instr.port = .command)
    (hb : s.callBoundary = false) : step s = ownStep s := by simp [step, inboxStep, hx, ha, hb]

theorem step_of_service_held {w : Word} (hx : s.inbox = .service w :: rest) (hi : s.isr ≠ .idle) : step s = ownStep s := by
  simp [step, inboxStep, hx, hi]

theorem step_of_serviceInterrupt_held (hx : s.inbox = .api .serviceInterrupt :: rest) (hi : s.isr ≠ .idle) :
    step s = ownStep s := by
  simp [step, inboxStep, hx, hi, ApiCall.instr, Instr.port]

theorem step_of_callTurn_held (hx : s.inbox = .callTurn :: rest) (hi : s.isr ≠ .idle) : step s = ownStep s := by
  simp [step, inboxStep, hx, hi]

end

/-- Every API call but the interrupt service is presented on the command port (30_encoding R104). -/
theorem ApiCall.port_eq_command {a : ApiCall} (h : a ≠ .serviceInterrupt) : a.instr.port = .command := by
  cases a with
  | serviceInterrupt => exact absurd rfl h
  | _ => rfl

end Sys2Proof.Machine

namespace Sys2Proof.Claims
open Sys2Proof.Machine

/-- While the head of the line-up has to wait, a step is the block's own agents'. -/
theorem MustWait.step_eq_ownStep {s : State} {x : Input} {rest : List Input} (h : MustWait s x) (hx : s.inbox = x :: rest) :
    step s = ownStep s := by
  rcases h with ⟨⟨p, rfl⟩ | ⟨a, rfl, ha⟩, hw⟩ | ⟨⟨w, rfl⟩ | rfl | rfl, hi⟩
  · exact step_of_command_held hx (State.callBoundary_eq_false hw)
  · exact step_of_api_held hx (ApiCall.port_eq_command ha) (State.callBoundary_eq_false hw)
  · exact step_of_service_held hx hi
  · exact step_of_serviceInterrupt_held hx hi
  · exact step_of_callTurn_held hx hi

/-- Settles O10: with nothing presented the own agents move too, and they do not read the line-up. -/
theorem presentedCommandWaits : Obligations.PresentedCommandWaits := by
  intro s t x rest hx hw h
  have hown : ownStep { s with inbox := [] } = .next t := h
  exact (hw.step_eq_ownStep hx).trans (ownStep_inbox { s with inbox := [] } t s.inbox hown)

end Sys2Proof.Claims
end

section
/-! The transport's contract (20_memory R66, R67, log 11): which answers the waiting read takes. -/

namespace Sys2Proof.Machine

theorem BufAnswer.admissible_iff {a : BufAnswer} {cap : Word} {ready : List Byte} :
    a.admissible cap ready = true ↔ ∀ l, a = .bytes l → l.length ≤ cap.toNat ∧ ∀ b ∈ l, b ∈ ready := by
  cases a <;> simp [BufAnswer.admissible]

theorem BufAnswer.admissible_eq_false {l : List Byte} {cap : Word} {ready : List Byte}
    (h : cap.toNat < l.length ∨ ∃ b ∈ l, b ∉ ready) : (BufAnswer.bytes l).admissible cap ready = false := by
  refine Bool.eq_false_iff.mpr fun ha => ?_
  obtain ⟨hlen, hmem⟩ := BufAnswer.admissible_iff.mp ha l rfl
  rcases h with hlong | ⟨b, hb, hnot⟩
  · exact absurd hlen (Nat.not_le.mpr hlong)
  · exact hnot (hmem b hb)

section
variable {s : State} {cap addr : Word} {a : BufAnswer}

theorem State.takeBufAnswer_of_admissible (hw : s.rdWait = some { cap := cap, addr := addr, answer := none })
    (ha : a.admissible cap s.transport.ready = true) :
    s.takeBufAnswer a =
      { s with
          rdWait := some { cap := cap, addr := addr, answer := some a }
          events := s.events ++ [.bufRead cap a] } := by
  simp [State.takeBufAnswer, hw, ha]

theorem State.takeBufAnswer_of_not_admissible (hw : s.rdWait = some { cap := cap, addr := addr, answer := none })
    (ha : a.admissible cap s.transport.ready = false) : s.takeBufAnswer a = s := by
  simp [State.takeBufAnswer, hw, ha]

end

theorem step_of_env {s : State} {m : EnvMove} {rest : List Input} (hx : s.inbox = .env m :: rest) :
    step s = .next (({ s with inbox := rest } : State).envMove m) := by simp only [step, inboxStep, hx]

end Sys2Proof.Machine

namespace Sys2Proof.Claims
open Sys2Proof.Machine

/-- Settles O29: the contract is `admissible`, and the environment's move is taken at once. -/
theorem transportAnswersWithinItsContract : Obligations.TransportAnswersWithinItsContract := by
  intro s rest cap addr r hx hw
  refine ⟨fun hkeeps => ?_, fun l hl hbreaks => ?_⟩ <;> refine (step_of_env hx).trans (congrArg _ ?_)
  · exact State.takeBufAnswer_of_admissible (s := { s with inbox := rest }) hw (BufAnswer.admissible_iff.mpr hkeeps)
  · subst hl
    exact State.takeBufAnswer_of_not_admissible (s := { s with inbox := rest }) hw (BufAnswer.admissible_eq_false hbreaks)

end Sys2Proof.Claims
end

section
/-! The fields of a command word (30_encoding R91): `encode` puts them where `decode` reads them, whatever the command and its
channel (`Laws.Encoding` has the well-formed ones row by row), and a word is its fields. -/

namespace Sys2Proof
open Sys2Proof.Claims

theorem rsvField_encode (i : Instr) : rsvField (encode i) = 0 := by
  rw [rsvField, encode, BitVec.extractLsb'_append_eq_left]

theorem opField_encode (i : Instr) : opField (encode i) = i.opcode := by
  rw [opField, encode, BitVec.extractLsb'_append_eq_of_add_le (by decide), BitVec.extractLsb'_append_eq_right]

theorem chField_encode (i : Instr) : chField (encode i) = i.channel?.getD 0 % 4 := by
  rw [chField, encode, BitVec.extractLsb'_append_eq_of_add_le (by decide), BitVec.extractLsb'_append_eq_left]
  rfl

/-- A channel field holds its two low bits of any number, and all of a channel that fits (R95). -/
theorem chField_encode_of_wellFormed {i : Instr} (h : i.wellFormed = true) : chField (encode i) = i.channel?.getD 0 := by
  rw [chField_encode]
  cases hc : i.channel? with
  | none => rfl
  | some ch =>
    have hfits : channelFits ch = true := by simpa [Instr.wellFormed, hc] using h
    exact Nat.mod_eq_of_lt (of_decide_eq_true hfits)

theorem chField_lt (w : Word) : chField w < Config.nch := BitVec.isLt _

/-- The word as a number (R103), with the channel's low two bits. -/
theorem encode_eq_cmdWord (i : Instr) : encode i = cmdWord (i.channel?.getD 0 % 4) i.opcode.toNat := by
  have hop := i.opcode.isLt
  refine BitVec.eq_of_toNat_eq ?_
  rw [encode, cmdWord, BitVec.toNat_append, BitVec.toNat_append, BitVec.toNat_ofNat, BitVec.toNat_ofNat,
    show (0 : BitVec 22).toNat = 0 from rfl, Nat.zero_shiftLeft, Nat.zero_or, ← Nat.shiftLeft_add_eq_or_of_lt hop, Nat.shiftLeft_eq]
  omega

/-- A word whose reserved field is 0 is made of its other two fields. -/
theorem eq_append_fields {w : Word} (h : rsvField w = 0) :
    w = (0 : BitVec 22) ++ (BitVec.ofNat 2 (chField w) ++ opField w : BitVec 10) := by
  have hch : BitVec.ofNat 2 (chField w) = w.extractLsb' 8 2 := BitVec.ofNat_toNat _ _
  have hlow : w.extractLsb' 8 2 ++ opField w = w.extractLsb' 0 10 :=
    BitVec.extractLsb'_append_extractLsb'_eq_extractLsb' (start₁ := 0) (len₁ := 8) rfl
  have hall : rsvField w ++ w.extractLsb' 0 10 = w.extractLsb' 0 32 :=
    BitVec.extractLsb'_append_extractLsb'_eq_extractLsb' (start₁ := 0) (len₁ := 10) rfl
  rw [hch, hlow, ← h, hall, BitVec.extractLsb'_eq_self]

/-- The mask of R95: it clears the channel field and keeps the others. -/
theorem append_fields_and_mask (ch : BitVec 2) (op : BitVec 8) :
    ((0 : BitVec 22) ++ (ch ++ op : BitVec 10) : Word) &&& 0xFFFFFCFF = (0 : BitVec 22) ++ ((0 : BitVec 2) ++ op : BitVec 10) := by
  have hmask : (0xFFFFFCFF : Word) = BitVec.allOnes 22 ++ ((0 : BitVec 2) ++ BitVec.allOnes 8 : BitVec 10) := by decide
  rw [hmask, BitVec.and_append, BitVec.and_append, BitVec.and_allOnes, BitVec.and_allOnes,
    show ch &&& 0 = 0 from BitVec.and_zero]

end Sys2Proof
end

section
/-! The decoder on the fields (30_encoding R91, R99, R101): the reserved field first, then the port, then the opcode's class. -/

namespace Sys2Proof

/-- What `decode` answers once the reserved field is found 0 (R101). -/
def decodeFields (p : Port) (op : BitVec 8) (ch : Nat) : Decoded :=
  match p with
  | .interrupt => if op = 0x0F then .instr .serviceIrq else .refuse .notAnInterruptEntry
  | .command =>
    if op.getLsbD 7 = false then decodeOperation op.toNat ch
    else if op.getLsbD 6 = false then decodeGet (op.extractLsb' 0 6).toNat ch
    else decodeSet (op.extractLsb' 0 6).toNat ch

theorem decode_of_reserved (p : Port) {w : Word} (h : rsvField w ≠ 0) : decode p w = .refuse .reservedBits := if_pos h

theorem decode_of_unreserved (p : Port) {w : Word} (h : rsvField w = 0) :
    decode p w = decodeFields p (opField w) (chField w) := if_neg (not_not_intro h)

theorem decodeFields_interrupt_of_ne {op : BitVec 8} (h : op ≠ 0x0F) (ch : Nat) :
    decodeFields .interrupt op ch = .refuse .notAnInterruptEntry := if_neg h

/-! ## The three classes of opcodes by their number (R92) -/

/-- The class bit, the direction bit and the status code of an opcode byte, as bounds and a remainder (R92). -/
theorem opcode_class (op : BitVec 8) :
    (op.getLsbD 7 = false ↔ op.toNat < 0x80) ∧ (0x80 ≤ op.toNat → (op.getLsbD 6 = false ↔ op.toNat < 0xC0)) ∧
      (op.extractLsb' 0 6).toNat = op.toNat % 0x40 := by
  revert op
  decide

variable {op : BitVec 8}

theorem decodeFields_operation (h : op.toNat < 0x80) (ch : Nat) :
    decodeFields .command op ch = decodeOperation op.toNat ch := if_pos ((opcode_class op).1.mpr h)

theorem decodeFields_get (h : 0x80 ≤ op.toNat) (h' : op.toNat < 0xC0) (ch : Nat) :
    decodeFields .command op ch = decodeGet (op.toNat % 0x40) ch := by
  obtain ⟨hclass, hdir, hcode⟩ := opcode_class op
  rw [decodeFields, if_neg (by rw [hclass]; omega), if_pos ((hdir h).mpr h'), hcode]

theorem decodeFields_set (h : 0xC0 ≤ op.toNat) (ch : Nat) :
    decodeFields .command op ch = decodeSet (op.toNat % 0x40) ch := by
  obtain ⟨hclass, hdir, hcode⟩ := opcode_class op
  rw [decodeFields, if_neg (by rw [hclass]; omega), if_neg (by rw [hdir (by omega)]; omega), hcode]

/-! ## The numbers the tables do not list (R99) -/

theorem decodeOperation_reserved {n : Nat} (h : n = 0 ∨ n = 7 ∨ (0x0B ≤ n ∧ n ≤ 0x0E) ∨ 0x10 ≤ n) (ch : Nat) :
    decodeOperation n ch = .refuse .reservedOpcode := by
  unfold decodeOperation
  split
  case h_11 => rfl
  all_goals omega

theorem decodeGet_unknown {n : Nat} (h : (6 ≤ n ∧ n ≤ 0x0F) ∨ n = 0x14 ∨ 0x18 ≤ n) (ch : Nat) :
    decodeGet n ch = .unknownStatusCode := by
  unfold decodeGet
  split
  case h_14 => rfl
  all_goals omega

theorem decodeSet_unknown {n : Nat} (h : (4 ≤ n ∧ n ≤ 0x0F) ∨ 0x16 ≤ n) (ch : Nat) :
    decodeSet n ch = .unknownStatusCode := by
  unfold decodeSet
  split
  case h_11 => rfl
  all_goals omega

end Sys2Proof
end

section
/-! Decoding and encoding are each other's inverse, but for the channel field of a command that takes none (R91, R95, R101). -/

namespace Sys2Proof

/-- Row by row of R93 and R94: a command's own opcode and channel spell it on its own port. -/
theorem decodeFields_opcode (i : Instr) : decodeFields i.port i.opcode (i.channel?.getD 0) = .instr i := by
  cases i <;> dsimp only [Instr.port, Instr.opcode] <;> rfl

/-- The opcode `op` (as a number) and the channel field `ch` are those of `i`, a command of port `p`. -/
def Instr.HasFields (i : Instr) (p : Port) (op ch : Nat) : Prop :=
  i.port = p ∧ i.opcode.toNat = op ∧ (i.channel? = none ∨ i.channel? = some ch)

theorem decodeOperation_inv {n ch : Nat} {i : Instr} (h : decodeOperation n ch = .instr i) : i.HasFields .command n ch := by
  unfold decodeOperation at h
  split at h <;> cases h <;> exact ⟨rfl, rfl, by simp [Instr.channel?]⟩

theorem decodeGet_inv {n ch : Nat} {i : Instr} (h : decodeGet n ch = .instr i) : i.HasFields .command (0x80 + n) ch := by
  unfold decodeGet at h
  split at h <;> cases h <;> exact ⟨rfl, rfl, by simp [Instr.channel?]⟩

theorem decodeSet_inv {n ch : Nat} {i : Instr} (h : decodeSet n ch = .instr i) : i.HasFields .command (0xC0 + n) ch := by
  unfold decodeSet at h
  split at h <;> cases h <;> exact ⟨rfl, rfl, by simp [Instr.channel?]⟩

/-- The fields a command is decoded from are its own, but for a channel field it does not take (R95). -/
theorem decodeFields_inv {p : Port} {op : BitVec 8} {ch : Nat} {i : Instr} (h : decodeFields p op ch = .instr i) :
    i.HasFields p op.toNat ch := by
  have hop := op.isLt
  cases p with
  | interrupt =>
    by_cases hs : op = 0x0F
    · rw [hs] at h ⊢
      cases h
      exact ⟨rfl, rfl, .inl rfl⟩
    · rw [decodeFields_interrupt_of_ne hs] at h
      cases h
  | command =>
    rcases Nat.lt_or_ge op.toNat 0x80 with hlow | hstatus
    · rw [decodeFields_operation hlow] at h
      exact decodeOperation_inv h
    rcases Nat.lt_or_ge op.toNat 0xC0 with hget | hset
    · rw [decodeFields_get hstatus hget] at h
      rw [show op.toNat = 0x80 + op.toNat % 0x40 by omega]
      exact decodeGet_inv h
    · rw [decodeFields_set hset] at h
      rw [show op.toNat = 0xC0 + op.toNat % 0x40 by omega]
      exact decodeSet_inv h

end Sys2Proof

namespace Sys2Proof.Claims

/-- Settles O1: the reserved field of the word is 0, and its other fields are the command's own. -/
theorem decodeOfEncode : Obligations.DecodeOfEncode := by
  intro i hi
  rw [decode_of_unreserved i.port (rsvField_encode i), opField_encode, chField_encode_of_wellFormed hi, decodeFields_opcode]

/-- Settles O2: the word is made of its fields, and those it was decoded from are the command's own. -/
theorem encodeOfDecode : Obligations.EncodeOfDecode := by
  intro p w i h
  by_cases hrsv : rsvField w = 0
  · rw [decode_of_unreserved p hrsv] at h
    obtain ⟨hport, hop, hch⟩ := decodeFields_inv h
    have hop : i.opcode = opField w := BitVec.eq_of_toNat_eq hop
    have hw := eq_append_fields hrsv
    rcases hch with hch | hch
    · refine ⟨by simp [Instr.wellFormed, hch], hport, ?_⟩
      rw [hw, append_fields_and_mask, encode, hop, hch]
      rfl
    · refine ⟨?_, hport, ?_⟩
      · simpa [Instr.wellFormed, hch, channelFits] using chField_lt w
      · rw [encode, hop, hch]
        exact hw.symm
  · rw [decode_of_reserved p hrsv] at h
    cases h

/-- Settles O3, word by word. -/
theorem tableWordsDecode : Obligations.TableWordsDecode := by
  unfold Obligations.TableWordsDecode
  decide

end Sys2Proof.Claims
end

section
/-! A presentation that may be taken is taken by the step (30_encoding R90, R101, R104), and a word that spells no command
leaves a mark or answers an error (R99, 60_exceptions R311, R312). -/

namespace Sys2Proof.Claims
open Sys2Proof.Machine

variable {s : State} {x : Input} {rest : List Input}

theorem Presented.inbox_eq (h : Presented s x rest) : s.inbox = x :: rest := h.1

theorem Presented.callBoundary (h : Presented s x rest) : s.callBoundary = true := by
  obtain ⟨-, hi, hb, hw, hs⟩ := h
  simp [State.callBoundary, hi, State.callReady_iff.mpr ⟨hb, hw, hs⟩]

end Sys2Proof.Claims

namespace Sys2Proof.Machine
open Sys2Proof.Claims

section
variable {s : State} {rest : List Input}

theorem step_of_command {p : CommandPort} (h : Presented s (.command p) rest) :
    step s = runDecoded (decode .command p.cmd) { s with inbox := rest, port := p } := by
  simp [step, inboxStep, h.inbox_eq, h.callBoundary, takeCommand]

theorem step_of_api {a : ApiCall} (h : Presented s (.api a) rest) (ha : a.instr.port = .command) :
    step s = exec a.instr { s with inbox := rest, port := a.operands s.port } := by
  simp [step, inboxStep, h.inbox_eq, ha, h.callBoundary, takeApi]

theorem step_of_service {w : Word} (hx : s.inbox = .service w :: rest) (hi : s.isr = .idle) :
    step s = runDecoded (decode .interrupt w) { s with inbox := rest } := by
  simp [step, inboxStep, hx, hi, takeService]

theorem step_of_serviceInterrupt (hx : s.inbox = .api .serviceInterrupt :: rest) (hi : s.isr = .idle) :
    step s = exec .serviceIrq { s with inbox := rest } := by
  simp [step, inboxStep, hx, hi, takeApi, ApiCall.instr, ApiCall.operands, Instr.port]

end

/-! ## Words that spell no command -/

theorem State.refuse_eq_refusedFor (r : RefuseReason) (s : State) : s.refuse r = refusedFor r s := by
  unfold State.refuse refusedFor
  cases s.refused <;> rfl

theorem State.markFault_eq (r : FaultReason) (s : State) : s.markFault r = { s with faulted := some (s.faulted.getD r) } := by
  unfold State.markFault
  cases s.faulted <;> rfl

section
variable {s : State}

theorem runDecoded_refuse_of_active (h : s.life = .active) (r : RefuseReason) :
    runDecoded (.refuse r) s = .next (refusedFor r s) := by
  rw [runDecoded, State.whenActive_of_active h, State.refuse_eq_refusedFor]

theorem runDecoded_refuse_of_uninit (h : s.life = .uninit) (r : RefuseReason) :
    runDecoded (.refuse r) s = .next (refusedFor .notInitialized s) := by
  rw [runDecoded, State.whenActive_of_uninit h, State.refuse_eq_refusedFor]

theorem runDecoded_unknownStatusCode_of_active (h : s.life = .active) :
    runDecoded .unknownStatusCode s = .next (failed 8 s) := by
  rw [runDecoded, State.whenActive_of_active h]
  rfl

end

section
variable {s : State} {rest : List Input} {r : RefuseReason}

theorem step_of_command_refused {p : CommandPort} (h : Presented s (.command p) rest) (hl : s.life = .active)
    (hd : decode .command p.cmd = .refuse r) : step s = .next (refusedFor r { s with inbox := rest, port := p }) := by
  rw [step_of_command h, hd]
  exact runDecoded_refuse_of_active (s := { s with inbox := rest, port := p }) hl r

theorem step_of_command_unknown {p : CommandPort} (h : Presented s (.command p) rest) (hl : s.life = .active)
    (hd : decode .command p.cmd = .unknownStatusCode) : step s = .next (failed 8 { s with inbox := rest, port := p }) := by
  rw [step_of_command h, hd]
  exact runDecoded_unknownStatusCode_of_active (s := { s with inbox := rest, port := p }) hl

theorem step_of_service_refused {w : Word} (hx : s.inbox = .service w :: rest) (hi : s.isr = .idle) (hl : s.life = .active)
    (hd : decode .interrupt w = .refuse r) : step s = .next (refusedFor r { s with inbox := rest }) := by
  rw [step_of_service hx hi, hd]
  exact runDecoded_refuse_of_active (s := { s with inbox := rest }) hl r

theorem step_of_service_gated {w : Word} (hx : s.inbox = .service w :: rest) (hi : s.isr = .idle) (hl : s.life = .uninit)
    (hd : decode .interrupt w = .refuse r) : step s = .next (refusedFor .notInitialized { s with inbox := rest }) := by
  rw [step_of_service hx hi, hd]
  exact runDecoded_refuse_of_uninit (s := { s with inbox := rest }) hl r

end

/-- Every command with a channel operand checks the gate first and the channel next (46_host_surface R270, 30_encoding R95). -/
theorem exec_of_channel {i : Instr} {ch : Nat} (h : i.channel? = some ch) (s : State) :
    ∃ k, exec i s = .next (s.whenActive (s.withChannel ch k)) := by
  cases i <;> cases h <;> exact ⟨_, rfl⟩

/-! ## API calls -/

/-- Every call but the interrupt service puts its command's word in `CMD` (30_encoding R104). -/
theorem ApiCall.operands_cmd {a : ApiCall} (h : a ≠ .serviceInterrupt) (p : CommandPort) :
    a.operands p = { a.operands p with cmd := cmdWord (a.instr.channel?.getD 0 % 4) a.instr.opcode.toNat } := by
  rw [← encode_eq_cmdWord]
  cases a with
  | serviceInterrupt => exact absurd rfl h
  | _ => rfl

end Sys2Proof.Machine

namespace Sys2Proof.Claims
open Sys2Proof.Machine

/-- Settles O6: each clause is a reason the decoder gives. -/
theorem unlistedCommandWords : Obligations.UnlistedCommandWords := by
  intro s p rest op hp hl hop
  have hop : (opField p.cmd).toNat = op := hop.symm
  have hlt : op < 0x100 := hop ▸ (opField p.cmd).isLt
  refine ⟨fun hrsv => step_of_command_refused hp hl (decode_of_reserved .command hrsv), fun hrsv => ?_⟩
  have hd := decode_of_unreserved .command hrsv
  refine ⟨fun h => step_of_command_refused hp hl ?_, fun h => step_of_command_refused hp hl ?_,
    fun h => step_of_command_unknown hp hl ?_⟩
  · rw [hd, decodeFields_operation (by omega), decodeOperation_reserved (by omega)]
  · rw [hd, decodeFields_operation (by omega), hop, h]
    rfl
  · rcases Nat.lt_or_ge op 0xC0 with hget | hset
    · rw [hd, decodeFields_get (by omega) (by omega), decodeGet_unknown (by omega)]
    · rw [hd, decodeFields_set (by omega), decodeSet_unknown (by omega)]

/-- Settles O9: past the gate the channel is checked before anything else is done. -/
theorem channelOutOfRangeFaults : Obligations.ChannelOutOfRangeFaults := by
  intro i ch s hi hch hl
  obtain ⟨k, hk⟩ := exec_of_channel hi s
  rw [hk, State.whenActive_of_active hl, State.withChannel_of_le hch, State.markFault_eq]

/-- Settles O4: the free call context takes the head of the line-up, and a decoded command is run as it is. -/
theorem stepRunsPresentedCommand : Obligations.StepRunsPresentedCommand := by
  intro s p rest i hp hd
  rw [step_of_command hp, hd, runDecoded]

/-- The row of R104 of every call but the interrupt service. -/
theorem apiRow (s : State) (rest : List Input) {a : ApiCall} (h : a ≠ .serviceInterrupt) :
    ApiRow s rest a a.instr
      { a.operands s.port with cmd := cmdWord (a.instr.channel?.getD 0 % 4) a.instr.opcode.toNat } := by
  have hport := ApiCall.port_eq_command h
  refine ⟨fun hi => ?_, fun hp => ?_⟩
  · have hdecode := decodeOfEncode a.instr hi
    rwa [hport, encode_eq_cmdWord] at hdecode
  · rw [step_of_api hp hport, ← ApiCall.operands_cmd h]

/-- Settles O5: the rows are one lemma's instances, and the interrupt service has its own port. -/
theorem apiCallRunsItsCommand : Obligations.ApiCallRunsItsCommand := by
  intro s rest ch v buf n cfg
  have row {a : ApiCall} := apiRow s rest (a := a)
  exact ⟨row (a := .setDirection ch v) nofun, row (a := .getDirection ch) nofun, row (a := .setTermination ch v) nofun,
    row (a := .getTermination ch) nofun, row (a := .setBufferingEnabled ch v) nofun, row (a := .getBufferingEnabled ch) nofun,
    row (a := .setTriggerEdge v) nofun, row (a := .setDataStorageMode v) nofun, row (a := .readChannel ch) nofun,
    row (a := .writeChannel ch v) nofun, row (a := .blockRead buf n) nofun, row (a := .blockWrite buf n) nofun,
    row (a := .enable v) nofun, row (a := .disable) nofun, row (a := .query) nofun, row (a := .initialise cfg) nofun,
    row (a := .shutdown) nofun, step_of_serviceInterrupt⟩

/-- Settles O7: the lifecycle gate comes before the word's own refusal. -/
theorem interruptPortWords : Obligations.InterruptPortWords := by
  intro s w rest hx hi
  have other (hrsv : rsvField w = 0) (hop : opField w ≠ 0x0F) : decode .interrupt w = .refuse .notAnInterruptEntry := by
    rw [decode_of_unreserved .interrupt hrsv, decodeFields_interrupt_of_ne hop]
  refine ⟨fun hrsv hop => ?_, fun hl hrsv => step_of_service_refused hx hi hl (decode_of_reserved .interrupt hrsv),
    fun hl hrsv hop => step_of_service_refused hx hi hl (other hrsv hop), fun hl hw => ?_⟩
  · rw [step_of_service hx hi, decode_of_unreserved .interrupt hrsv, show opField w = 0x0F from hop]
    rfl
  · by_cases hrsv : rsvField w = 0
    · exact step_of_service_gated hx hi hl (other hrsv (hw.resolve_left (not_not_intro hrsv)))
    · exact step_of_service_gated hx hi hl (decode_of_reserved .interrupt hrsv)

end Sys2Proof.Claims
end

section
/-! The commands of the configuration store while Active (40_config_store R120 to R133, 46_host_surface R296, R297): the
gate and the channel operand pass, a query answers, and a value operand is written in its domain and an error out of it. -/

namespace Sys2Proof.Machine
open Sys2Proof.Claims

/-! ## The codes of the two-valued domains (30_encoding R96) -/

theorem Direction.code_eq (d : Direction) : d.code = if d = .input then 0 else 1 := by cases d <;> rfl

theorem Termination.code_eq (t : Termination) : t.code = if t = .passive then 0 else 1 := by cases t <;> rfl

theorem TriggerEdge.code_eq (e : TriggerEdge) : e.code = if e = .falling then 0 else 1 := by cases e <;> rfl

theorem boolCode_eq (b : Bool) : boolCode b = if b then 1 else 0 := by cases b <;> rfl

@[simp] theorem Direction.ofWord?_code (d : Direction) : Direction.ofWord? d.code = some d := by cases d <;> rfl

@[simp] theorem Termination.ofWord?_code (t : Termination) : Termination.ofWord? t.code = some t := by cases t <;> rfl

@[simp] theorem TriggerEdge.ofWord?_code (e : TriggerEdge) : TriggerEdge.ofWord? e.code = some e := by cases e <;> rfl

@[simp] theorem boolOfWord?_boolCode (b : Bool) : boolOfWord? (boolCode b) = some b := by cases b <;> rfl

/-! ## Gate, channel and value -/

/-- The word of a command whose channel operand is a channel (30_encoding R95, R103). -/
theorem encode_of_channel {i : Instr} {c : Channel} (h : i.channel? = some c.index) : encode i = cmdWord c.index i.opcode.toNat := by
  rw [encode_eq_cmdWord, h, Option.getD_some, Nat.mod_eq_of_lt c.index_lt]

section
variable {s : State} {i : Instr} {α : Type} {v : Option α}

theorem exec_query_of_active (hl : s.life = .active) {r : Word} (h : exec i s = .next (s.whenActive (s.succeed r))) :
    exec i s = .next (answered r s) := by
  rw [h, State.whenActive_of_active hl]
  rfl

theorem exec_channelQuery_of_active (hl : s.life = .active) {c : Channel} {r : Channel → Word}
    (h : exec i s = .next (s.whenActive (s.withChannel c.index fun c => s.succeed (r c)))) :
    exec i s = .next (answered (r c) s) :=
  exec_query_of_active hl (h.trans (by rw [State.withChannel_index]))

/-- A command that writes a value operand: an error for a value out of its domain, its update for one in it (R96). -/
theorem exec_write_of_active (hl : s.life = .active) {k : α → State} (h : exec i s = .next (s.whenActive (s.withValue v k))) :
    (v = none → exec i s = .next (failed 1 s)) ∧ ∀ x, v = some x → exec i s = .next (k x) := by
  rw [h, State.whenActive_of_active hl]
  exact ⟨fun hv => hv ▸ rfl, fun x hv => hv ▸ rfl⟩

theorem exec_channelWrite_of_active (hl : s.life = .active) {c : Channel} {k : Channel → α → State}
    (h : exec i s = .next (s.whenActive (s.withChannel c.index fun c => s.withValue v (k c)))) :
    (v = none → exec i s = .next (failed 1 s)) ∧ ∀ x, v = some x → exec i s = .next (k c x) :=
  exec_write_of_active hl (h.trans (by rw [State.withChannel_index]))

end

/-! ## The response after an update -/

/-- Success after an update whose last event is `e`: the response is the next event (00_scope R16, 30_encoding R98). -/
theorem State.succeed_of_events {s : State} {l : List Event} {e : Event} (h : s.events = l ++ [e]) (r : Word) :
    s.succeed r = { s with resp := { status := 0, res := r, res2 := 0 }, events := l ++ [e, .response 0 r 0] } := by
  rw [State.succeed, State.respond, h, List.append_assoc, List.singleton_append]

end Sys2Proof.Machine

namespace Sys2Proof.Claims
open Sys2Proof.Machine

/-- Settles O14: the value is the direction's code; the sizes of the new store are what `Store.recompute` counts (R121). -/
theorem setChDirWrites : Obligations.SetChDirWrites := by
  intro c s hl
  obtain ⟨hbad, hgood⟩ := exec_channelWrite_of_active (i := .setChDir c.index) hl rfl
  refine ⟨encode_of_channel rfl, fun hv => hbad (twoValued_eq_none hv), fun d hv => ?_⟩
  rw [hgood d (by rw [hv, ← d.code_eq, d.ofWord?_code]), State.succeed_of_events (e := .ctrlWrite (.dir c d)) rfl]
  simp only [eq_comm (a := d)]
  rfl

/-- Settles O15: the model does not look at the channel's direction. -/
theorem setTermWrites : Obligations.SetTermWrites := by
  intro c s hl
  obtain ⟨hbad, hgood⟩ := exec_channelWrite_of_active (i := .setTerm c.index) hl rfl
  refine ⟨encode_of_channel rfl, fun hv => hbad (twoValued_eq_none hv), fun t hv => ?_⟩
  rw [hgood t (by rw [hv, ← t.code_eq, t.ofWord?_code]), State.succeed_of_events (e := .ctrlWrite (.term c t)) rfl]
  rfl

/-- Settles O16: the flag goes through the sizes as a direction does, and no control write stands before the response. -/
theorem setBufenWrites : Obligations.SetBufenWrites := by
  intro c s hl
  obtain ⟨hbad, hgood⟩ := exec_channelWrite_of_active (i := .setBufen c.index) hl rfl
  refine ⟨encode_of_channel rfl, fun hv => hbad (twoValued_eq_none hv), fun b hv => ?_⟩
  rw [hgood b (by rw [hv, ← boolCode_eq, boolOfWord?_boolCode])]
  rfl

/-- Settles O17: a device-wide command, with no channel to check. -/
theorem setEdgeWrites : Obligations.SetEdgeWrites := by
  intro s hl
  obtain ⟨hbad, hgood⟩ := exec_write_of_active (i := .setEdge) hl rfl
  refine ⟨rfl, fun hv => hbad (twoValued_eq_none hv), fun e hv => ?_⟩
  rw [hgood e (by rw [hv, ← e.code_eq, e.ofWord?_code]), State.succeed_of_events (e := .ctrlWrite (.edge e)) rfl]
  rfl

/-- Settles O18: `modeOfWord?` reads every three-bit mode back from its word. -/
theorem setStorageWrites : Obligations.SetStorageWrites := by
  intro s hl
  obtain ⟨hbad, hgood⟩ := exec_write_of_active (i := .setStorage) hl rfl
  refine ⟨rfl, fun hv => hbad (modeOfWord?_eq_none hv), fun m hv => ?_⟩
  rw [hgood m (by rw [hv, modeOfWord?_setWidth]), State.succeed_of_events (e := .ctrlWrite (.mode m)) rfl]
  simp only [eq_comm (a := m)]
  rfl

/-- Settles O11: each query is its answer behind the gate and the channel operand. -/
theorem channelGettersAnswer : Obligations.ChannelGettersAnswer := by
  intro c s hl
  rw [← Direction.code_eq, ← Termination.code_eq, ← boolCode_eq]
  have answer {i : Instr} {r : Channel → Word} := exec_channelQuery_of_active (i := i) (c := c) (r := r) hl
  exact ⟨encode_of_channel rfl, encode_of_channel rfl, encode_of_channel rfl, encode_of_channel rfl, encode_of_channel rfl,
    answer (r := fun c => (s.store.dir.get c).code) rfl, answer (r := fun c => (s.store.term.get c).code) rfl,
    answer (r := fun c => boolCode (s.store.bufEn.get c)) rfl, answer (r := fun _ => Config.chLen) rfl,
    answer (r := fun _ => Config.chTypeCode) rfl⟩

/-- Settles O12: each query is its answer behind the gate. -/
theorem deviceGettersAnswer : Obligations.DeviceGettersAnswer := by
  intro s hl
  rw [← TriggerEdge.code_eq, ← boolCode_eq]
  have answer {i : Instr} {r : Word} := exec_query_of_active (i := i) (r := r) hl
  exact ⟨rfl, rfl, rfl, rfl, rfl, rfl, rfl, rfl, answer rfl, answer rfl, answer rfl, answer rfl, answer rfl, answer rfl,
    answer rfl, answer rfl⟩

end Sys2Proof.Claims
end

section
/-! The channel direction multiplexer (41_direct_io R152, 43_block_io R201(b)): what every agent's step logs fits the directions
the step found, command by command and service by service. -/

namespace Sys2Proof.Machine

/-! ## Events and the directions they need -/

/-- The event makes no port access, or one its channel's direction admits (41_direct_io R152). -/
def Event.FitsDirection (dir : Chans Direction) : Event → Prop
  | .portRead c _ => dir.get c = .input
  | .portWrite c _ => dir.get c = .output
  | .ctrlWrite _ | .ackIrq | .bufMode _ | .bufAcquire _ | .bufPut _ _ | .bufReady _ | .bufRead _ _ | .notify _ | .overrun _
  | .memRead _ _ | .memWrite _ _ | .response _ _ _ | .bufCreate _ _ _ _ | .bufRemove | .sigCreate _ | .sigRemove _ => True

/-- The log `new` is `old` with events after it that fit the directions `dir`. -/
def LogFits (dir : Chans Direction) (old new : List Event) : Prop :=
  ∃ l, new = old ++ l ∧ ∀ e ∈ l, e.FitsDirection dir

section
variable {dir : Chans Direction} {old new l : List Event}

theorem LogFits.refl (dir : Chans Direction) (old : List Event) : LogFits dir old old :=
  ⟨[], (List.append_nil old).symm, List.forall_mem_nil _⟩

theorem LogFits.append (h : LogFits dir old new) (hl : ∀ e ∈ l, e.FitsDirection dir) : LogFits dir old (new ++ l) := by
  obtain ⟨k, rfl, hk⟩ := h
  exact ⟨k ++ l, List.append_assoc .., List.forall_mem_append.mpr ⟨hk, hl⟩⟩

theorem LogFits.concat {e : Event} (h : LogFits dir old new) (he : e.FitsDirection dir) : LogFits dir old (new ++ [e]) :=
  h.append (List.forall_mem_singleton.mpr he)

theorem LogFits.of_append (hl : ∀ e ∈ l, e.FitsDirection dir) : LogFits dir old (old ++ l) := (LogFits.refl dir old).append hl

theorem LogFits.of_concat {e : Event} (he : e.FitsDirection dir) : LogFits dir old (old ++ [e]) := (LogFits.refl dir old).concat he

/-- A response is no port access. -/
theorem LogFits.respond {s : State} {a b c : Word} (h : LogFits dir old s.events) : LogFits dir old (s.respond a b c).events :=
  h.concat trivial

end

/-! ## Lists of events that make no port access -/

theorem initCtrlWrites_fitsDirection (dir : Chans Direction) (v : InitValues) : ∀ e ∈ initCtrlWrites v, e.FitsDirection dir := by
  simp [initCtrlWrites, Channel.all, Event.FitsDirection]

theorem exitCtrlWrites_fitsDirection (dir : Chans Direction) : ∀ e ∈ exitCtrlWrites, e.FitsDirection dir := by
  simp [exitCtrlWrites, Channel.all, Event.FitsDirection]

theorem memWriteEvents_fitsDirection (dir : Chans Direction) (a : Nat) (l : List Byte) :
    ∀ e ∈ memWriteEvents a l, e.FitsDirection dir := by
  induction l generalizing a with
  | nil => exact List.forall_mem_nil _
  | cons b l ih => exact List.forall_mem_cons.mpr ⟨trivial, ih (a + 1)⟩

theorem BlkOp.queries_fitsDirection (dir : Chans Direction) (op : BlkOp) (m : TransportMode) :
    ∀ e ∈ op.queries m, e.FitsDirection dir := by
  cases op with
  | blkread => exact List.forall_mem_singleton.mpr trivial
  | blkwrite => exact List.forall_mem_nil _

/-! ## Agent by agent -/

/-- EXIT removes the notification target only where one is installed (46_host_surface R276). -/
theorem State.shutdown_logFits (dir : Chans Direction) (s : State) : LogFits dir s.events s.shutdown.events := by
  have sig : ∀ e ∈ (if s.sigTarget = 0 then [] else [Event.sigRemove s.sigTarget]), e.FitsDirection dir := by
    split
    · exact List.forall_mem_nil _
    · exact List.forall_mem_singleton.mpr trivial
  exact ((LogFits.of_append (exitCtrlWrites_fitsDirection dir)).append sig).concat trivial

/-- Of the commands, READ and WRITE alone access a port in their own step, and each has checked its channel's direction. -/
theorem CommandEffect.logFits {s t : State} {i : Instr} (h : CommandEffect s i t) :
    LogFits s.store.dir s.events t.events := by
  cases h with
  | gated | alreadyActive | badChannel | blockStuck | entered | notEntered => exact .refl _ _
  | failed | failedAfterDraw | answered | bufEnSet | debugLevelSet | irqCountSet => exact .respond (.refl _ _)
  | portRead c hd => exact .respond (.of_concat hd)
  | portWritten c hd => exact .respond (.of_concat hd)
  | programmed v => exact .respond (.of_append (List.forall_mem_cons.mpr ⟨trivial, initCtrlWrites_fitsDirection _ v⟩))
  | shutDown => exact .respond (s.shutdown_logFits _)
  | blockStarted op => exact .of_append (op.queries_fitsDirection _ _)
  | readWaits => exact .of_concat trivial
  | dirSet | termSet | edgeSet | modeSet | irqEnableSet | sigCreated | sigRemoved => exact .respond (.of_concat trivial)

theorem runDecoded_logFits {d : Decoded} {s t : State} (h : runDecoded d s = .next t) :
    LogFits s.store.dir s.events t.events := by
  rcases runDecoded_cases h with ⟨i, -, he⟩ | ⟨r, rfl⟩ | ⟨-, rfl⟩
  · exact he.logFits
  · exact .refl _ _
  · exact .respond (.refl _ _)

/-- The harvest reads a port only of a channel that is eligible as an Input (44_isr_sequencer R222). -/
theorem State.isrHarvest_logFits (c : Channel) (s : State) : LogFits s.store.dir s.events (s.isrHarvest c).events := by
  rcases s.isrHarvest_cases c with ⟨-, h⟩ | ⟨he, -, h⟩ | ⟨-, -, h⟩ <;> rw [h]
  · exact .refl _ _
  · have hd : s.store.dir.get c = .input := by
      simp only [Store.elig, Bool.and_eq_true, decide_eq_true_eq] at he
      exact he.2
    exact .of_append (by simp [Event.FitsDirection, hd])
  · exact .of_append (by simp [Event.FitsDirection])

theorem State.isrStep_logFits (s : State) : LogFits s.store.dir s.events s.isrStep.events := by
  cases hi : s.isr with
  | idle => rw [State.isrStep_of_idle hi]; exact .refl _ _
  | ack => rw [State.isrStep_of_ack hi]; exact .of_concat trivial
  | harvest c => rw [State.isrStep_of_harvest hi]; exact s.isrHarvest_logFits c
  | notify =>
    rw [State.isrStep_of_notify hi, State.isrNotify]
    split
    · exact .refl _ _
    · exact .of_concat trivial
  | count => rw [State.isrStep_of_count hi]; exact .refl _ _
  | unassigned k => rw [State.isrStep_of_unassigned hi]; exact .refl _ _

/-- A transfer accesses the port of its channel in its command's direction (43_block_io R191, R200). -/
theorem State.transferByte_logFits {s : State} {op : BlkOp} {c : Channel} (h : s.store.dir.get c = op.direction) (a : Nat) :
    LogFits s.store.dir s.events (s.transferByte op c a).events := by
  cases op with
  | blkread => exact .concat (.of_concat h) trivial
  | blkwrite => exact .concat (.of_concat trivial) h

theorem State.advanceBlock_logFits {dir : Chans Direction} {old : List Event} {s : State} (h : LogFits dir old s.events)
    (cur : BlkCursor) : LogFits dir old (s.advanceBlock cur).events := by
  rcases s.advanceBlock_cases cur with ⟨-, ha⟩ | ⟨-, ha⟩ <;> rw [ha]
  · exact .respond h
  · exact h

theorem State.finishWait_logFits (dir : Chans Direction) (w : ReadWait) (r : BufAnswer) (s : State) :
    LogFits dir s.events (s.finishWait w r).events := by
  rcases s.finishWait_cases w r with ⟨_, -, h⟩ | ⟨l, -, -, h⟩ | ⟨_, -, -, h⟩ <;> rw [h]
  · exact .respond (.refl _ _)
  · exact .respond (.of_append (memWriteEvents_fitsDirection dir _ l))
  · exact .refl _ _

/-- The channels left to a block command in flight have its direction, for no step changes a direction under it (R201). -/
theorem State.CursorSound.channel_dir {s : State} {cur : BlkCursor} {c : Channel} (h : s.CursorSound) (hb : s.blk = some cur)
    (hc : cur.chans[cur.k]? = some c) : s.store.dir.get c = cur.op.direction := by
  obtain ⟨-, hsel, -⟩ := h cur hb
  have hmem : c ∈ s.store.sel cur.op.direction := hsel ▸ List.mem_of_getElem? hc
  exact (Store.mem_sel.mp hmem).2

theorem callStep_logFits {s t : State} (h : callStep s = .next t) (hs : s.CursorSound) :
    LogFits s.store.dir s.events t.events := by
  rcases callStep_cases s with ⟨-, hc⟩ | ⟨-, cur, hb, hc⟩ | ⟨-, -, cap, addr, r, -, hc⟩ <;> rw [hc] at h
  · cases h
    exact .refl _ _
  · rcases transferStep_cases cur s with ⟨-, ht⟩ | ⟨c, hk, -, ht⟩ | ⟨c, -, -, ht⟩ <;> rw [ht] at h <;> cases h
    · exact .refl _ _
    · exact State.advanceBlock_logFits (State.transferByte_logFits (hs.channel_dir hb hk) _) cur
  · cases h
    exact s.finishWait_logFits _ _ r

/-- The environment accesses no port: of its moves only the transport's answer is logged (20_memory R66). -/
theorem State.envMove_logFits (dir : Chans Direction) (m : EnvMove) (s : State) : LogFits dir s.events (s.envMove m).events := by
  cases m with
  | transition p =>
    simp only [State.envMove]
    split <;> exact .refl _ _
  | bufAnswer a =>
    simp only [State.envMove, State.takeBufAnswer]
    split
    · split
      · exact .of_concat trivial
      · exact .refl _ _
    · exact .refl _ _
    · exact .refl _ _
  | hostStore a v =>
    simp only [State.envMove, State.hostStore]
    split <;> exact .refl _ _
  | edge | pins | idOk | allocOk | transportOk | sigOk | slotFree => exact .refl _ _

theorem step_logFits {s t : State} (h : step s = .next t) (hs : s.CursorSound) : LogFits s.store.dir s.events t.events := by
  rcases step_agent_cases s with ⟨-, l, hn⟩ | ⟨-, -, l, hn⟩ | ⟨-, l, hn⟩ | ⟨m, l, hn⟩ |
    ⟨-, d, l, p, -, hn⟩ <;> rw [hn] at h
  · cases h
    exact State.isrStep_logFits { s with inbox := l }
  · cases h
    exact .refl _ _
  · exact callStep_logFits (s := { s with inbox := l }) h hs
  · cases h
    exact State.envMove_logFits _ m { s with inbox := l }
  · exact runDecoded_logFits (s := { s with inbox := l, port := p }) h

end Sys2Proof.Machine

namespace Sys2Proof.Claims
open Sys2Proof.Machine

/-- Settles O57: only the block command in flight needs the invariant, which ties its channels to the current directions. -/
theorem multiplexerRespectsDirection : Obligations.MultiplexerRespectsDirection := by
  intro s t hs h
  obtain ⟨l, hl, hfits⟩ := step_logFits h hs.cursor
  exact ⟨l, hl, fun c v => ⟨hfits (.portRead c v), hfits (.portWrite c v)⟩⟩

end Sys2Proof.Claims
end

section
/-! READ and WRITE while Active (41_direct_io R150, R151): the channel operand passes, then the direction decides. -/

namespace Sys2Proof.Machine

/-- A command with a channel operand, run for a channel that exists. -/
theorem exec_channel_of_active {s : State} {i : Instr} {c : Channel} {k : Channel → State} (hl : s.life = .active)
    (h : exec i s = .next (s.whenActive (s.withChannel c.index k))) : exec i s = .next (k c) := by
  rw [h, State.whenActive_of_active hl, State.withChannel_index]

section
variable {s : State} {c : Channel}

theorem exec_read_of_input (hl : s.life = .active) (hd : s.store.dir.get c = .input) :
    exec (.read c.index) s = .next ((s.portRead c).succeed ((s.portValue c).setWidth 32)) := by
  rw [exec_channel_of_active (i := .read c.index) hl rfl, hd]

theorem exec_read_of_output (hl : s.life = .active) (hd : s.store.dir.get c = .output) :
    exec (.read c.index) s = .next (s.raiseErr .wrongDirection) := by
  rw [exec_channel_of_active (i := .read c.index) hl rfl, hd]

theorem exec_write_of_output (hl : s.life = .active) (hd : s.store.dir.get c = .output) :
    exec (.write c.index) s = .next ((s.portWrite c (s.port.val.setWidth 8)).succeed 0) := by
  rw [exec_channel_of_active (i := .write c.index) hl rfl, hd, BitVec.setWidth_eq_extractLsb' (by decide)]

theorem exec_write_of_input (hl : s.life = .active) (hd : s.store.dir.get c = .input) :
    exec (.write c.index) s = .next (s.raiseErr .wrongDirection) := by
  rw [exec_channel_of_active (i := .write c.index) hl rfl, hd]

end

end Sys2Proof.Machine

namespace Sys2Proof.Claims
open Sys2Proof.Machine

/-- Settles O19: the port read is the model's own on an Input channel, and the response follows its event. -/
theorem readAnswersThePort : Obligations.ReadAnswersThePort := by
  intro c s hl
  refine ⟨encode_of_channel rfl, fun hd => exec_read_of_output hl hd, fun hd => ?_⟩
  rw [exec_read_of_input hl hd, State.succeed_of_events (s.portRead_events c)]
  rfl

/-- Settles O20: the port write is the model's own on an Output channel, and the response follows its event. -/
theorem writeWritesThePort : Obligations.WriteWritesThePort := by
  intro c s hl
  refine ⟨encode_of_channel rfl, fun hd => exec_write_of_input hl hd, fun hd => ?_⟩
  rw [exec_write_of_output hl hd, State.succeed_of_events (s.portWrite_events c _)]
  rfl

end Sys2Proof.Claims
end

section
/-! The table of latch classes and what a class means for a read and for an edge (42_storage_mode_latch R171 to R177). -/

namespace Sys2Proof.Machine

/-! ## The table (R174) -/

section
variable {m : BitVec 3} {c : Channel}

theorem latchClass_eq_ownRead_iff :
    latchClass m c = .ownRead ↔
      m = 0 ∨ (m = 2 ∧ c ≠ .ch3) ∨ (m = 3 ∧ (c = .ch0 ∨ c = .ch1)) ∨ (m = 4 ∧ c = .ch0) := by
  cases c <;> decide +revert

theorem latchClass_eq_group0_iff : latchClass m c = .group0 ↔ m = 1 ∧ c = .ch0 := by cases c <;> decide +revert

theorem latchClass_eq_follower_iff : latchClass m c = .follower ↔ m = 1 ∧ c ≠ .ch0 := by cases c <;> decide +revert

theorem latchClass_eq_edge_iff :
    latchClass m c = .edge ↔
      m = 5 ∨ (m = 4 ∧ c ≠ .ch0) ∨ (m = 3 ∧ (c = .ch2 ∨ c = .ch3)) ∨ (m = 2 ∧ c = .ch3) := by
  cases c <;> decide +revert

theorem latchClass_eq_transparent_iff : latchClass m c = .transparent ↔ m = 7 := by cases c <;> decide +revert

theorem latchClass_eq_unspec_iff : latchClass m c = .unspec ↔ m = 6 := by cases c <;> decide +revert

/-- The classes whose latches an edge leaves (R177). -/
theorem latchClass_ne_edge_and_ne_unspec_iff :
    latchClass m c ≠ .edge ∧ latchClass m c ≠ .unspec ↔
      m = 0 ∨ m = 1 ∨ m = 7 ∨ (m = 4 ∧ c = .ch0) ∨ (m = 3 ∧ (c = .ch0 ∨ c = .ch1)) ∨ (m = 2 ∧ c ≠ .ch3) := by
  cases c <;> decide +revert

end

/-! ## The pins and the latches (R171, R175) -/

section
variable {s : State} {c : Channel} {b : Byte}

theorem State.pin_of_output (hd : s.store.dir.get c = .output) (hr : s.outReg.get c = some b) : s.pin c = b := by
  simp only [State.pin, hd, hr, Option.getD_some]

theorem State.pin_of_input (hd : s.store.dir.get c = .input) (hp : s.env.pins.get c = some b) : s.pin c = b := by
  simp only [State.pin, hd, hp, Option.getD_some]

theorem State.latchVal_of_known (h : s.latch.get c = some b) : s.latchVal c = b := by
  simp only [State.latchVal, h, Option.getD_some]

/-- A class whose read returns the latch: in mode 7 where the implementation freezes the read (R175, decision D20). -/
def State.ReadsLatch (s : State) (c : Channel) : Prop :=
  latchClass s.store.mode c = .follower ∨ latchClass s.store.mode c = .edge ∨
    (latchClass s.store.mode c = .transparent ∧ s.params.mode7Read = .frozen)

theorem State.read_of_ownRead (h : latchClass s.store.mode c = .ownRead) :
    s.portValue c = s.pin c ∧ s.latchesAfterRead c = s.latch.set c (some (s.pin c)) := by
  simp only [State.portValue, State.latchesAfterRead, h, and_self]

theorem State.read_of_group0 (h : latchClass s.store.mode c = .group0) :
    s.portValue c = s.pin .ch0 ∧ s.latchesAfterRead c = .ofFn fun k => some (s.pin k) := by
  simp only [State.portValue, State.latchesAfterRead, h, and_self]

theorem State.read_of_live (h : latchClass s.store.mode c = .transparent) (hl : s.params.mode7Read = .live) :
    s.portValue c = s.pin c ∧ s.latchesAfterRead c = s.latch := by
  simp only [State.portValue, State.latchesAfterRead, h, hl, and_self]

theorem State.ReadsLatch.read (h : s.ReadsLatch c) : s.portValue c = s.latchVal c ∧ s.latchesAfterRead c = s.latch := by
  rcases h with h | h | ⟨h, hf⟩
  · simp only [State.portValue, State.latchesAfterRead, h, and_self]
  · simp only [State.portValue, State.latchesAfterRead, h, and_self]
  · simp only [State.portValue, State.latchesAfterRead, h, hf, and_self]

theorem State.latchesAfterRead_of_unspec (h : latchClass s.store.mode c = .unspec) : s.latchesAfterRead c = s.latch := by
  simp only [State.latchesAfterRead, h]

/-! ## The edge event (R177) -/

theorem State.latchAfterEdge_of_edge (h : latchClass s.store.mode c = .edge) : s.latchAfterEdge c = some (s.pin c) := by
  simp only [State.latchAfterEdge, h]

theorem State.latchAfterEdge_of_unspec (h : latchClass s.store.mode c = .unspec) : s.latchAfterEdge c = none := by
  simp only [State.latchAfterEdge, h]

theorem State.latchAfterEdge_of_kept (he : latchClass s.store.mode c ≠ .edge) (hu : latchClass s.store.mode c ≠ .unspec) :
    s.latchAfterEdge c = s.latch.get c := by
  unfold State.latchAfterEdge
  split
  · next h => exact absurd h he
  · next h => exact absurd h hu
  all_goals rfl

theorem State.edgeEvent_irqPending_of_enabled (h : s.irqEnable = true) : s.edgeEvent.irqPending = true := by simp [h]

end

/-! ## The environment's moves (R177, 20_memory R87, log 19) -/

theorem State.envMove_of_edge {s : State} {m : EnvMove} (h : m = .edge ∨ m = .transition s.store.edge) :
    s.envMove m = s.edgeEvent := by
  rcases h with rfl | rfl
  · rfl
  · exact if_pos rfl

theorem State.envMove_of_other_transition {s : State} {q : TriggerEdge} (h : q ≠ s.store.edge) :
    s.envMove (.transition q) = s := if_neg h

theorem State.hostStore_of_absent {s : State} {a : Word} (h : hmemExists s.params a.toNat = false) (v : Byte) :
    s.hostStore a v = s := if_neg (Bool.eq_false_iff.mp h)

theorem State.hostStore_of_exists {s : State} {a : Word} (h : hmemExists s.params a.toNat = true) (v : Byte) :
    s.hostStore a v = { s with hmem := memSet s.hmem a.toNat v } := if_pos h

end Sys2Proof.Machine

namespace Sys2Proof.Claims
open Sys2Proof.Machine

/-- Settles O22: the pins by direction, and each move is taken at once; a store puts its byte with `memSet`. -/
theorem environmentMovesWrite : Obligations.EnvironmentMovesWrite := by
  refine ⟨fun c s b => ⟨State.pin_of_output, State.pin_of_input⟩, fun s rest m hx => ?_⟩
  have hstep : step s = .next (({ s with inbox := rest } : State).envMove m) := step_of_env hx
  refine ⟨?pins, ?idOk, ?allocOk, ?transportOk, ?sigOk, ?slotFree, ?hostStore⟩
  case hostStore =>
    rintro a v rfl
    refine ⟨fun habs => ?_, fun hex hwf => ?_⟩
    · exact hstep.trans (congrArg _ (State.hostStore_of_absent (s := { s with inbox := rest }) habs v))
    · exact ⟨memSet s.hmem a.toNat v, memByte_memSet_self hwf _ v, fun x hne => memByte_memSet_ne hne _ v,
        hstep.trans (congrArg _ (State.hostStore_of_exists (s := { s with inbox := rest }) hex v))⟩
  case pins =>
    rintro c b rfl
    exact hstep
  all_goals
    rintro b rfl
    exact hstep

/-- Settles O23: the edge writes each latch by its class, and a mode's channels are those of the class in the table. -/
theorem edgeEventLatchesAndPends : Obligations.EdgeEventLatchesAndPends := by
  intro s rest m hx
  refine ⟨fun hm => ⟨s.edgeEvent.latch, s.edgeEvent.irqPending, ?step, fun c hc => ?sampled, fun h6 => ?unknown,
    fun c hc => ?kept, State.edgeEvent_irqPending_of_enabled, fun hp => State.envMove_irqPending hp .edge⟩, ?other⟩
  case step => exact (step_of_env hx).trans (congrArg _ (State.envMove_of_edge (s := { s with inbox := rest }) hm))
  case sampled =>
    rw [State.edgeEvent_latch, Chans.get_ofFn, State.latchAfterEdge_of_edge (latchClass_eq_edge_iff.mpr hc)]
  case unknown =>
    refine Chans.ext_get fun c => ?_
    rw [State.edgeEvent_latch, Chans.get_ofFn, Chans.get_const,
      State.latchAfterEdge_of_unspec (latchClass_eq_unspec_iff.mpr h6)]
  case kept =>
    obtain ⟨he, hu⟩ := latchClass_ne_edge_and_ne_unspec_iff.mpr hc
    rw [State.edgeEvent_latch, Chans.get_ofFn, State.latchAfterEdge_of_kept he hu]
  case other =>
    rintro q rfl hq
    exact (step_of_env hx).trans (congrArg _ (State.envMove_of_other_transition (s := { s with inbox := rest }) hq))

/-- Settles O21: each clause is a class of the table, and a class says what its read returns and latches. -/
theorem portReadFollowsTheModeTable : Obligations.PortReadFollowsTheModeTable := by
  intro c s
  refine ⟨fun h => State.read_of_ownRead (latchClass_eq_ownRead_iff.mpr h), fun h => ?group, fun h => ?latched,
    fun ⟨h7, hl⟩ => State.read_of_live (latchClass_eq_transparent_iff.mpr h7) hl,
    fun h6 => State.latchesAfterRead_of_unspec (latchClass_eq_unspec_iff.mpr h6)⟩
  case group =>
    obtain ⟨hv, hl⟩ := State.read_of_group0 (latchClass_eq_group0_iff.mpr h)
    exact ⟨hv, fun k => by rw [hl, Chans.get_ofFn]⟩
  case latched =>
    have hreads : s.ReadsLatch c := by
      unfold State.ReadsLatch
      rw [latchClass_eq_follower_iff, latchClass_eq_edge_iff, latchClass_eq_transparent_iff]
      tauto
    obtain ⟨hv, hl⟩ := hreads.read
    exact ⟨hl, fun b hb => hv.trans (State.latchVal_of_known hb)⟩

end Sys2Proof.Claims
end

section
/-! Block I/O (43_block_io): the check steps while Active, a turn of the call context with a block command or an answered
read in flight, and the whole run of a direct block command left to itself. -/

namespace Sys2Proof.Machine
open Sys2Proof.Claims

/-! ## The check steps (R190, R191, R200) -/

theorem hmemAdmits_eq_false_iff {p : Config.Params} {addr : Word} {n : Nat} :
    hmemAdmits p addr n = false ↔ ∃ k < n, hmemExists p (addr.toNat + k) = false := by
  simp [hmemAdmits]

section
variable {s : State} {op : BlkOp}

theorem State.startBlock_of_noChannels (h : op.size s.store = 0) : s.startBlock op = failed 3 s := if_pos h

theorem State.startBlock_of_short (h : s.port.val.toNat < (op.size s.store).toNat) : s.startBlock op = failed 4 s := by
  have hz : op.size s.store ≠ 0 := fun h0 => by simp [h0] at h
  rw [State.startBlock, if_neg hz, if_pos h]
  rfl

theorem State.startBlock_of_admitted (hz : op.size s.store ≠ 0) (hv : (op.size s.store).toNat ≤ s.port.val.toNat)
    (h : ∀ k < (op.size s.store).toNat, hmemExists s.params (s.port.addr.toNat + k) = true) :
    s.startBlock op =
      { s with
          blk := some { op := op, chans := s.store.sel op.direction, k := 0, addr := s.port.addr }
          events := s.events ++ op.queries s.transport.mode } := by
  rw [State.startBlock, if_neg hz, if_neg (Nat.not_lt.mpr hv), if_pos (hmemAdmits_iff.mpr h)]

theorem State.startBlock_of_absent (hz : op.size s.store ≠ 0) (hv : (op.size s.store).toNat ≤ s.port.val.toNat)
    (h : ∃ k < (op.size s.store).toNat, hmemExists s.params (s.port.addr.toNat + k) = false) :
    s.startBlock op = { s with stuck := true } := by
  rw [State.startBlock, if_neg hz, if_neg (Nat.not_lt.mpr hv),
    if_neg (Bool.eq_false_iff.mp (hmemAdmits_eq_false_iff.mpr h))]

theorem exec_blkread_of_direct (hl : s.life = .active) (hm : s.transport.mode = .userControlled) :
    exec .blkread s = .next (s.startBlock .blkread) := by
  rw [exec, execBlkread, State.whenActive_of_active hl, hm]

theorem exec_blkread_of_delegated (hl : s.life = .active) (hm : s.transport.mode ≠ .userControlled) :
    exec .blkread s = .next s.startWait := by
  rw [exec, execBlkread, State.whenActive_of_active hl]
  cases h : s.transport.mode with
  | userControlled => exact absurd h hm
  | ringBuffer | ringBufferOverwrite | currentValueOnly => rfl

theorem exec_blkwrite_of_active (hl : s.life = .active) : exec .blkwrite s = .next (s.startBlock .blkwrite) := by
  rw [exec, execBlkwrite, State.whenActive_of_active hl]

end

/-! ## A turn of the call context (20_memory R82, R83) -/

section
variable {s : State} {rest : List Input}

theorem step_of_inbox_nil (hx : s.inbox = []) : step s = ownStep s := by simp only [step, inboxStep, hx]

theorem step_of_ownTurn (h : OwnTurn s rest) : step s = ownStep { s with inbox := rest } := by
  rcases h with ⟨hx, rfl⟩ | hx
  · rw [step_of_inbox_nil hx, ← hx]
  · simp only [step, inboxStep, hx]

theorem step_of_callTurn (h : CallTurn s rest) : step s = callStep { s with inbox := rest } := by
  obtain ⟨hi, ⟨hown, hr⟩ | hx⟩ := h
  · rw [step_of_ownTurn hown]
    exact ownStep_of_call (s := { s with inbox := rest }) hi hr
  · simp only [step, inboxStep, hx, hi, if_true]

end

/-! ## One transfer (R191, R200) -/

/-- A read's transfer, with its two events together. -/
theorem State.transferByte_blkread (c : Channel) (a : Nat) (s : State) :
    s.transferByte .blkread c a =
      { s with
          latch := s.latchesAfterRead c, draws := s.draws + 1, hmem := memSet s.hmem a (s.portValue c)
          events := s.events ++ [.portRead c (s.portValue c), .memWrite a (s.portValue c)] } := by
  simp [State.transferByte, State.portRead]

/-- A write's transfer, with its two events together. -/
theorem State.transferByte_blkwrite (c : Channel) (a : Nat) (s : State) :
    s.transferByte .blkwrite c a =
      { s with
          outReg := s.outReg.set c (some (memByte s.hmem a))
          events := s.events ++ [.memRead a (memByte s.hmem a), .portWrite c (memByte s.hmem a)] } := by
  simp [State.transferByte, State.portWrite, State.emit]

section
variable {s : State} {cur : BlkCursor} {c : Channel}

theorem State.advanceBlock_of_lt (h : cur.k + 1 < cur.chans.length) (s : State) :
    s.advanceBlock cur = { s with blk := some { cur with k := cur.k + 1 } } := if_neg h.ne

theorem State.advanceBlock_of_last (h : cur.k + 1 = cur.chans.length) (s : State) :
    s.advanceBlock cur = { s with blk := none }.succeed (BitVec.ofNat 32 cur.chans.length) := if_pos h

theorem transferStep_of_exists (hc : cur.chans[cur.k]? = some c)
    (hx : hmemExists s.params (cur.addr.toNat + cur.k) = true) :
    transferStep cur s = .next ((s.transferByte cur.op c (cur.addr.toNat + cur.k)).advanceBlock cur) := by
  simp only [transferStep, hc, hx, if_true]

/-- A turn of the call context with a block command in flight is one transfer. -/
theorem step_of_transferTurn {rest : List Input} (h : CallTurn s rest) (hs : s.stuck = false) (hb : s.blk = some cur)
    (hc : cur.chans[cur.k]? = some c) (hx : hmemExists s.params (cur.addr.toNat + cur.k) = true) :
    step s =
      .next ((({ s with inbox := rest } : State).transferByte cur.op c (cur.addr.toNat + cur.k)).advanceBlock cur) := by
  rw [step_of_callTurn h, callStep_of_blk (s := { s with inbox := rest }) hs hb]
  exact transferStep_of_exists (s := { s with inbox := rest }) hc hx

end

/-! ## The answered read (R192) -/

section
variable {s : State} {w : ReadWait} {l : List Byte}

theorem State.finishWait_of_admitted (h : hmemAdmits s.params w.addr l.length = true) :
    s.finishWait w (.bytes l) =
      { s with rdWait := none, hmem := memSetList s.hmem w.addr.toNat l
               events := s.events ++ memWriteEvents w.addr.toNat l }.respond 0 (BitVec.ofNat 32 l.length)
        s.transport.mode.code := if_pos h

theorem State.finishWait_of_absent (h : hmemAdmits s.params w.addr l.length = false) :
    s.finishWait w (.bytes l) = { s with stuck := true } := if_neg (Bool.eq_false_iff.mp h)

end

@[simp] theorem memWriteEvents_length (a : Nat) (l : List Byte) : (memWriteEvents a l).length = l.length := by
  induction l generalizing a with
  | nil => rfl
  | cons b l ih => rw [memWriteEvents, List.length_cons, List.length_cons, ih]

theorem memWriteEvents_getElem? (a : Nat) {l : List Byte} {k : Nat} {v : Byte} (h : l[k]? = some v) :
    (memWriteEvents a l)[k]? = some (.memWrite (a + k) v) := by
  induction l generalizing a k with
  | nil => simp at h
  | cons b l ih =>
    cases k with
    | zero =>
      simp only [List.getElem?_cons_zero, Option.some.injEq] at h
      subst h
      rfl
    | succ k =>
      have hk := ih (a + 1) (List.getElem?_cons_succ ▸ h)
      rwa [Nat.add_right_comm] at hk

/-! ## A direct block command left to itself (R201, 20_memory R63) -/

/-- The transfers of the channels `l`, in order, from the host byte `a` on. -/
def State.transferBytes (op : BlkOp) : Nat → List Channel → State → State
  | _, [], s => s
  | a, c :: l, s => (s.transferByte op c a).transferBytes op (a + 1) l

/-- A transfer does not look at the cursor. -/
theorem State.transferBytes_setBlk (op : BlkOp) (a : Nat) (l : List Channel) (s : State) (b : Option BlkCursor) :
    ({ s with blk := b } : State).transferBytes op a l = { s.transferBytes op a l with blk := b } := by
  induction l generalizing a s with
  | nil => rfl
  | cons c l ih =>
    have hbyte : ({ s with blk := b } : State).transferByte op c a = { s.transferByte op c a with blk := b } := by
      cases op <;> rfl
    rw [State.transferBytes, hbyte, ih]
    rfl

/-- The call context goes on with `cur` at every step: nothing is lined up, no request is asserted, and the host buffer has
every byte of the command. -/
structure State.Undisturbed (s : State) (cur : BlkCursor) : Prop where
  inbox : s.inbox = []
  idle : s.isr = .idle
  request : s.request = false
  stuck : s.stuck = false
  blk : s.blk = some cur
  admits : hmemAdmits s.params cur.addr cur.chans.length = true

namespace State.Undisturbed

variable {s : State} {cur : BlkCursor} {c : Channel}

theorem of_inv (h : s.Inv) (hx : s.inbox = []) (hi : s.isr = .idle) (hr : s.request = false) (hb : s.blk = some cur) :
    s.Undisturbed cur := by
  obtain ⟨-, -, -, hadmits, -, hstuck⟩ := h.cursor cur hb
  exact ⟨hx, hi, hr, hstuck, hb, hadmits⟩

theorem step_eq (h : s.Undisturbed cur) {l : List Channel} (hl : cur.chans.drop cur.k = c :: l) :
    step s = .next ((s.transferByte cur.op c (cur.addr.toNat + cur.k)).advanceBlock cur) := by
  have hc : cur.chans[cur.k]? = some c := List.head?_drop.symm.trans (congrArg List.head? hl)
  obtain ⟨hk, -⟩ := List.getElem?_eq_some_iff.mp hc
  rw [step_of_inbox_nil h.inbox, ownStep_of_call h.idle fun _ => h.request, callStep_of_blk h.stuck h.blk,
    transferStep_of_exists hc (hmemAdmits_iff.mp h.admits cur.k hk)]

/-- After a transfer that is not the last the command is still left to itself. -/
theorem advance (h : s.Undisturbed cur) (op : BlkOp) (c : Channel) (a : Nat) :
    State.Undisturbed { s.transferByte op c a with blk := some { cur with k := cur.k + 1 } } { cur with k := cur.k + 1 } := by
  rw [State.transferByte_frame]
  exact ⟨h.inbox, h.idle, h.request, h.stuck, rfl, h.admits⟩

end State.Undisturbed

theorem BlkCursor.chans_length_of_drop (cur : BlkCursor) {c : Channel} {l : List Channel}
    (hl : cur.chans.drop cur.k = c :: l) : cur.chans.length = cur.k + (c :: l).length := by
  have hlen := congrArg List.length hl
  rw [List.length_drop, List.length_cons] at hlen
  rw [List.length_cons]
  omega

theorem run_succ_of_step {s t : State} (h : step s = .next t) (n : Nat) :
    Host.Core.run core (n + 1) s = Host.Core.run core n t := by
  simp only [Host.Core.run, show core.step s = .next t from h]

/-- A block command left to itself makes the transfers of the channels left to it, a step each, and then answers. -/
theorem State.Undisturbed.run_eq {s : State} {cur : BlkCursor} {c : Channel} {l : List Channel} (h : s.Undisturbed cur)
    (hl : cur.chans.drop cur.k = c :: l) :
    Host.Core.run core (c :: l).length s =
      .next ({ s.transferBytes cur.op (cur.addr.toNat + cur.k) (c :: l) with blk := none }.succeed
        (BitVec.ofNat 32 cur.chans.length)) := by
  induction l generalizing s cur c with
  | nil =>
    have hlast : cur.k + 1 = cur.chans.length := (cur.chans_length_of_drop hl).symm
    rw [List.length_singleton, run_succ_of_step (h.step_eq hl), State.advanceBlock_of_last hlast]
    rfl
  | cons d l ih =>
    have hlt : cur.k + 1 < cur.chans.length := by
      rw [cur.chans_length_of_drop hl, List.length_cons, List.length_cons]
      omega
    have htail : cur.chans.drop (cur.k + 1) = d :: l := List.tail_drop.symm.trans (congrArg List.tail hl)
    rw [List.length_cons, run_succ_of_step (h.step_eq hl), State.advanceBlock_of_lt hlt, ih (h.advance _ _ _) htail,
      State.transferBytes_setBlk]
    rfl

/-- From a state with the invariant, the whole run of a direct block command. -/
theorem State.Inv.run_block {s : State} {op : BlkOp} {addr : Word} (h : s.Inv) (hx : s.inbox = []) (hi : s.isr = .idle)
    (hr : s.request = false)
    (hb : s.blk = some { op := op, chans := s.store.sel op.direction, k := 0, addr := addr }) :
    Host.Core.run core (s.store.sel op.direction).length s =
      .next ({ s.transferBytes op addr.toNat (s.store.sel op.direction) with blk := none }.succeed
        (BitVec.ofNat 32 (s.store.sel op.direction).length)) := by
  obtain ⟨-, -, hpos, -⟩ := h.cursor _ hb
  obtain ⟨c, l, hl⟩ := List.exists_cons_of_length_pos hpos
  have hrun := (State.Undisturbed.of_inv h hx hi hr hb).run_eq hl
  rwa [← hl] at hrun

/-! ## What the transfers of a list of channels write and leave -/

/-- What no transfer of one of the channels changes, the transfers of all of them leave. -/
theorem State.transferBytes_keeps {α : Type} {op : BlkOp} {l : List Channel} (f : State → α)
    (h : ∀ c ∈ l, ∀ a s, f (s.transferByte op c a) = f s) (a : Nat) (s : State) : f (s.transferBytes op a l) = f s := by
  induction l generalizing a s with
  | nil => rfl
  | cons c l ih =>
    obtain ⟨hc, hl⟩ := List.forall_mem_cons.mp h
    rw [State.transferBytes, ih hl, hc]

section
variable {s : State} {l : List Channel} {c : Channel} {k : Nat}

theorem State.transferBytes_blkwrite_outReg_of_not_mem (hc : c ∉ l) (a : Nat) (s : State) :
    (s.transferBytes .blkwrite a l).outReg.get c = s.outReg.get c :=
  State.transferBytes_keeps (op := .blkwrite) (fun s => s.outReg.get c)
    (fun _ hd _ s => Chans.get_set_ne s.outReg (ne_of_mem_of_not_mem hd hc).symm _) a s

/-- A write puts host byte `k` in the output register of the `k`-th channel, and no later transfer writes that register. -/
theorem State.transferBytes_blkwrite_outReg (hnd : l.Nodup) (hk : l[k]? = some c) (a : Nat) (s : State) :
    (s.transferBytes .blkwrite a l).outReg.get c = some (memByte s.hmem (a + k)) := by
  induction l generalizing a k s with
  | nil => simp at hk
  | cons d l ih =>
    obtain ⟨hd, hnd⟩ := List.nodup_cons.mp hnd
    cases k with
    | zero =>
      obtain rfl : d = c := by simpa using hk
      rw [State.transferBytes, State.transferBytes_blkwrite_outReg_of_not_mem hd]
      exact Chans.get_set_self ..
    | succ k =>
      rw [State.transferBytes, ih hnd (by simpa using hk), Nat.add_assoc, Nat.add_comm 1 k]
      rfl

theorem State.transferBytes_blkread_memByte_outside {a b : Nat} (h : b < a ∨ a + l.length ≤ b) (s : State) :
    memByte (s.transferBytes .blkread a l).hmem b = memByte s.hmem b := by
  induction l generalizing a s with
  | nil => rfl
  | cons c l ih =>
    rw [List.length_cons] at h
    rw [State.transferBytes, ih (by omega)]
    exact memByte_memSet_ne (by omega) _ _

/-- In mode 0 every port read samples its own channel's pins alone (42_storage_mode_latch R174, R175). -/
theorem State.read_of_mode_zero (hm : s.store.mode = 0) (c : Channel) :
    s.portValue c = s.pin c ∧ s.latchesAfterRead c = s.latch.set c (some (s.pin c)) :=
  State.read_of_ownRead (latchClass_eq_ownRead_iff.mpr (.inl hm))

theorem State.transferBytes_blkread_latch_of_not_mem (hm : s.store.mode = 0) (hc : c ∉ l) (a : Nat) :
    (s.transferBytes .blkread a l).latch.get c = s.latch.get c := by
  induction l generalizing a s with
  | nil => rfl
  | cons d l ih =>
    obtain ⟨hne, hc⟩ := List.ne_and_not_mem_of_not_mem_cons hc
    obtain ⟨-, hlatch⟩ := State.read_of_mode_zero hm d
    rw [State.transferBytes, ih (s := s.transferByte .blkread d a) hm hc, State.transferByte_blkread, hlatch,
      Chans.get_set_ne _ hne]

/-- In mode 0 a read puts the fixed pins of the `k`-th channel in host byte `k` and in the channel's latch. -/
theorem State.transferBytes_blkread_samples {b : Byte} (hm : s.store.mode = 0) (hwf : Memory.wf s.hmem = true)
    (hnd : l.Nodup) (hk : l[k]? = some c) (hd : s.store.dir.get c = .input) (hp : s.env.pins.get c = some b) (a : Nat) :
    memByte (s.transferBytes .blkread a l).hmem (a + k) = b ∧ (s.transferBytes .blkread a l).latch.get c = some b := by
  induction l generalizing a k s with
  | nil => simp at hk
  | cons d l ih =>
    obtain ⟨hdl, hnd⟩ := List.nodup_cons.mp hnd
    rw [State.transferBytes]
    cases k with
    | zero =>
      obtain rfl : d = c := by simpa using hk
      obtain ⟨hvalue, hlatch⟩ := State.read_of_mode_zero hm d
      have hkept := State.transferBytes_blkread_latch_of_not_mem (s := s.transferByte .blkread d a) hm hdl (a + 1)
      rw [State.transferBytes_blkread_memByte_outside (by omega), hkept, State.transferByte_blkread, hvalue, hlatch,
        State.pin_of_input hd hp]
      exact ⟨memByte_memSet_self hwf a b, Chans.get_set_self ..⟩
    | succ k =>
      have hrest := ih (s := s.transferByte .blkread d a) hm (memSet_wf hwf a _) hnd (by simpa using hk) hd hp (a + 1)
      rwa [Nat.add_assoc, Nat.add_comm 1 k] at hrest

end

end Sys2Proof.Machine

namespace Sys2Proof.Claims
open Sys2Proof.Machine

/-- Settles O24: the check step of a direct command, whose one query is BLKREAD's own. -/
theorem blkreadDirectChecks : Obligations.BlkreadDirectChecks := by
  intro s hl hm
  rw [exec_blkread_of_direct hl hm]
  refine ⟨fun h0 => congrArg _ (State.startBlock_of_noChannels h0), fun hv => congrArg _ (State.startBlock_of_short hv),
    fun h0 hv => ⟨fun h => ?_, fun h => congrArg _ (State.startBlock_of_absent (op := .blkread) h0 hv h)⟩⟩
  rw [State.startBlock_of_admitted (op := .blkread) h0 hv h, hm]
  rfl

/-- Settles O26: the same check step, which asks the transport nothing. -/
theorem blkwriteChecks : Obligations.BlkwriteChecks := by
  intro s hl
  rw [exec_blkwrite_of_active hl]
  refine ⟨fun h0 => congrArg _ (State.startBlock_of_noChannels h0), fun hv => congrArg _ (State.startBlock_of_short hv),
    fun h0 hv => ⟨fun h => ?_, fun h => congrArg _ (State.startBlock_of_absent (op := .blkwrite) h0 hv h)⟩⟩
  rw [State.startBlock_of_admitted (op := .blkwrite) h0 hv h, BlkOp.queries, List.append_nil]
  rfl

/-- Settles O25: every mode but UserControlled takes the wait step. -/
theorem blkreadDelegates : Obligations.BlkreadDelegates := fun _ hl hm => exec_blkread_of_delegated hl hm

/-- Settles O27: the byte goes through `memSet`, and the cursor moves on or the command answers. -/
theorem blkreadTransfersOneByte : Obligations.BlkreadTransfersOneByte := by
  rintro s rest cur c a hturn hs hwf hb hop hc rfl hx
  have hstep := step_of_transferTurn hturn hs hb hc hx
  rw [hop, State.transferByte_blkread] at hstep
  refine ⟨memSet s.hmem (cur.addr.toNat + cur.k) (s.portValue c), memByte_memSet_self hwf _ _,
    fun b hne => memByte_memSet_ne hne _ _, fun hk => ?_, fun hk => ?_⟩
  · rw [hstep, State.advanceBlock_of_lt hk]
    rfl
  · rw [hstep, State.advanceBlock_of_last hk, State.succeed, State.respond, List.append_assoc]
    rfl

/-- Settles O28: the byte is read where the cursor stands, and the memory is not written. -/
theorem blkwriteTransfersOneByte : Obligations.BlkwriteTransfersOneByte := by
  rintro s rest cur c a hturn hs hb hop hc rfl hx
  have hstep := step_of_transferTurn hturn hs hb hc hx
  rw [hop, State.transferByte_blkwrite] at hstep
  refine ⟨fun hk => ?_, fun hk => ?_⟩
  · rw [hstep, State.advanceBlock_of_lt hk]
  · rw [hstep, State.advanceBlock_of_last hk, State.succeed, State.respond, List.append_assoc]
    rfl

/-- Settles O30: the bytes are stored with `memSetList`, each with its event. -/
theorem delegatedReadCompletes : Obligations.DelegatedReadCompletes := by
  intro s rest cap addr r hturn hs hb hwf hw
  have hstep : step s =
      .next (({ s with inbox := rest } : State).finishWait { cap := cap, addr := addr, answer := some r } r) :=
    (step_of_callTurn hturn).trans (callStep_of_answer (s := { s with inbox := rest }) hs hb hw)
  refine ⟨?failed, ?stored, ?absent⟩
  case failed =>
    rintro code rfl
    exact hstep
  case stored =>
    rintro l rfl hall
    refine ⟨memSetList s.hmem addr.toNat l, memWriteEvents addr.toNat l,
      fun k v hk => ⟨memByte_memSetList_inside hwf _ hk, memWriteEvents_getElem? _ hk⟩,
      fun b hb => memByte_memSetList_outside hb _, memWriteEvents_length _ l, hstep.trans (congrArg _ ?_)⟩
    exact State.finishWait_of_admitted (s := { s with inbox := rest }) (hmemAdmits_iff.mpr hall)
  case absent =>
    rintro l rfl hex
    exact hstep.trans (congrArg _
      (State.finishWait_of_absent (s := { s with inbox := rest }) (hmemAdmits_eq_false_iff.mpr hex)))

/-- Settles O31: each selected channel is written by its own transfer only. -/
theorem blkwriteRunWritesEverySelectedChannel : Obligations.BlkwriteRunWritesEverySelectedChannel := by
  intro s addr hinv hx hi hr hb
  exact ⟨_, hinv.run_block (op := .blkwrite) hx hi hr hb, rfl, rfl,
    fun k c hk => State.transferBytes_blkwrite_outReg (s.store.sel_nodup .output) hk _ s,
    fun c hc => State.transferBytes_blkwrite_outReg_of_not_mem hc _ s,
    State.transferBytes_keeps State.store (fun _ _ _ _ => rfl) _ s,
    State.transferBytes_keeps State.hmem (fun _ _ _ _ => rfl) _ s,
    State.transferBytes_keeps State.latch (fun _ _ _ _ => rfl) _ s⟩

/-- Settles O32: a selected channel is an Input one, so its pins are what the environment has fixed. -/
theorem blkreadRunReadsEverySelectedChannel : Obligations.BlkreadRunReadsEverySelectedChannel := by
  intro s addr hinv hx hi hr hm hb
  refine ⟨_, hinv.run_block (op := .blkread) hx hi hr hb, rfl, rfl, fun k c b hk hp => ?samples,
    fun a ha => State.transferBytes_blkread_memByte_outside ha s,
    State.transferBytes_keeps State.store (fun _ _ _ _ => rfl) _ s,
    State.transferBytes_keeps State.outReg (fun _ _ _ _ => rfl) _ s⟩
  case samples =>
    obtain ⟨-, hd⟩ := Store.mem_sel.mp (List.mem_of_getElem? hk)
    exact State.transferBytes_blkread_samples hm hinv.memory (s.store.sel_nodup .input) hk hd hp _

end Sys2Proof.Claims
end

section
/-! The interrupt dispatcher and the ISR sequencer (44_isr_sequencer): where SERVICE_IRQ enters, each step of the running ISR on
a turn of the block's own agents, and a whole service left to itself. -/

namespace Sys2Proof.Machine
open Sys2Proof.Claims

/-! ## Entry (R220) -/

section
variable {s : State}

theorem State.serviceEnabled_iff :
    s.serviceEnabled = true ↔
      s.life = .active ∧ s.isr = .idle ∧
        ((s.irqPending = true ∧ s.irqEnable = true) ∨ s.params.spuriousService = true) := by
  simp [State.serviceEnabled, State.request, and_assoc, and_comm (a := s.irqEnable = true)]

theorem exec_serviceIrq_of_enabled (h : s.serviceEnabled = true) : exec .serviceIrq s = .next s.enterIsr :=
  congrArg _ (if_pos h)

theorem exec_serviceIrq_of_not_enabled (h : ¬s.serviceEnabled = true) : exec .serviceIrq s = .next s :=
  congrArg _ (if_neg h)

end

/-! ## A turn of the running ISR (R83) -/

/-- On a turn of the block's own agents the running ISR moves, and it does not read the line-up. -/
theorem step_of_isrTurn {s : State} {rest : List Input} (h : OwnTurn s rest) (hi : s.isr ≠ .idle) :
    step s = .next { s.isrStep with inbox := rest } := by
  rw [step_of_ownTurn h, ownStep_of_isr (s := { s with inbox := rest }) hi, State.isrStep_inbox]

theorem step_of_isr_alone {s : State} (hx : s.inbox = []) (hi : s.isr ≠ .idle) : step s = .next s.isrStep :=
  (step_of_inbox_nil hx).trans (ownStep_of_isr hi)

/-! ## The Harvest step (R222) -/

theorem Store.elig_iff {st : Store} {d : Direction} {c : Channel} :
    st.elig d c = true ↔ st.bufEn.get c = true ∧ st.dir.get c = d := by
  simp [Store.elig]

theorem State.answer_of_fixed {s : State} {a : Option Bool} {b : Bool} (h : a = some b) (k : Nat) : s.answer a k = b := by
  rw [h, State.answer, Option.getD_some]

section
variable {s : State} {c : Channel}

theorem State.isrHarvest_of_not_elig (he : ¬s.store.elig .input c = true) :
    s.isrHarvest c = { s with isr := IsrState.afterHarvest c } := if_neg he

theorem State.isrHarvest_of_no_slot (he : s.store.elig .input c = true) (ha : s.answer s.env.slotFree 0 = false) :
    s.isrHarvest c =
      { s with isr := .notify, draws := s.draws + 1, events := s.events ++ [.bufAcquire none, .overrun c] } := by
  rw [State.isrHarvest, if_pos he, if_neg (Bool.eq_false_iff.mp ha)]

theorem State.isrHarvest_of_slot (he : s.store.elig .input c = true) (ha : s.answer s.env.slotFree 0 = true) :
    s.isrHarvest c =
      { s with
          latch := s.latchesAfterRead c, draws := s.draws + 1, isr := IsrState.afterHarvest c
          transport := { s.transport with
            ready := s.transport.ready ++ [s.portValue c], acquired := s.transport.acquired + 1 }
          events := s.events ++ [.bufAcquire (some s.transport.acquired), .portRead c (s.portValue c),
            .bufPut s.transport.acquired (s.portValue c), .bufReady s.transport.acquired] } := by
  rw [State.isrHarvest, if_pos he, if_pos ha]
  rfl

end

/-! ## The Notify and the Count step (R223, R224) -/

theorem State.isrNotify_of_no_target {s : State} (h : s.sigTarget = 0) : s.isrNotify = { s with isr := .count } := if_pos h

theorem State.isrNotify_of_target {s : State} (h : s.sigTarget ≠ 0) :
    s.isrNotify = { s with isr := .count, events := s.events ++ [.notify s.sigTarget] } := if_neg h

/-- The counter's increment wraps (decision D14). -/
theorem Word.add_one_eq_ofNat_mod (w : Word) : w + 1 = BitVec.ofNat 32 ((w.toNat + 1) % 2 ^ 32) :=
  BitVec.eq_of_toNat_eq (by simp)

/-! ## What a stretch of a service changes (R226) -/

/-- From `s` the service has come to `t` with its sequencer at `isr` and the counter at `count`: it has put the bytes `l` into the
transport, and besides these only the latches, the slots, the draws and the log may differ. -/
def State.ServesTo (s : State) (isr : IsrState) (count : Word) (l : List Byte) (t : State) : Prop :=
  ∃ latch acquired draws events,
    t =
      { s with
          isr := isr, irqCount := count, latch := latch, draws := draws, events := events
          transport := { s.transport with ready := s.transport.ready ++ l, acquired := acquired } }

section
variable {s t u : State} {i j : IsrState} {m n : Word} {k l : List Byte}

theorem State.ServesTo.trans (hst : s.ServesTo i m k t) (htu : t.ServesTo j n l u) : s.ServesTo j n (k ++ l) u := by
  obtain ⟨_, _, _, _, rfl⟩ := hst
  obtain ⟨latch, acquired, draws, events, rfl⟩ := htu
  exact ⟨latch, acquired, draws, events, by rw [List.append_assoc]⟩

theorem State.ServesTo.isr_eq (h : s.ServesTo i m l t) : t.isr = i := by
  obtain ⟨_, _, _, _, rfl⟩ := h
  rfl

theorem State.ServesTo.irqCount_eq (h : s.ServesTo i m l t) : t.irqCount = m := by
  obtain ⟨_, _, _, _, rfl⟩ := h
  rfl

theorem State.ServesTo.inbox_eq (h : s.ServesTo i m l t) : t.inbox = s.inbox := by
  obtain ⟨_, _, _, _, rfl⟩ := h
  rfl

theorem State.ServesTo.store_eq (h : s.ServesTo i m l t) : t.store = s.store := by
  obtain ⟨_, _, _, _, rfl⟩ := h
  rfl

/-- Moving the sequencer and the counter alone, with some events logged, puts no byte. -/
theorem State.servesTo_of_no_byte (s : State) (i : IsrState) (m : Word) (draws : Nat) (events : List Event) :
    s.ServesTo i m [] { s with isr := i, irqCount := m, draws := draws, events := events } :=
  ⟨s.latch, s.transport.acquired, draws, events, by rw [List.append_nil]⟩

end

/-- A Harvest step goes on or ends the harvest, and puts at most the byte of its own channel, where that is eligible (R222). -/
theorem State.isrHarvest_servesTo (c : Channel) (s : State) :
    ∃ i l, (i = IsrState.afterHarvest c ∨ i = .notify) ∧ l.length ≤ ([c].filter (s.store.elig .input)).length ∧
      s.ServesTo i s.irqCount l (s.isrHarvest c) := by
  rcases s.isrHarvest_cases c with ⟨-, h⟩ | ⟨he, -, h⟩ | ⟨-, -, h⟩ <;> rw [h]
  · exact ⟨_, [], .inl rfl, Nat.zero_le _, s.servesTo_of_no_byte _ _ _ _⟩
  · exact ⟨_, [s.portValue c], .inl rfl, by simp [he], _, _, _, _, rfl⟩
  · exact ⟨_, [], .inr rfl, Nat.zero_le _, s.servesTo_of_no_byte _ _ _ _⟩

theorem State.isrNotify_servesTo (s : State) : s.ServesTo .count s.irqCount [] s.isrNotify := by
  rw [State.isrNotify_frame]
  exact s.servesTo_of_no_byte _ _ _ _

theorem State.isrCount_servesTo (s : State) : s.ServesTo .idle (s.irqCount + 1) [] s.isrCount :=
  s.servesTo_of_no_byte _ _ _ _

/-! ## A service left to itself (R225) -/

/-- The sequencer's state when the channels `l` are left to harvest (R222). -/
def IsrState.harvesting : List Channel → IsrState
  | [] => .notify
  | c :: _ => .harvest c

theorem IsrState.harvesting_ne_idle (l : List Channel) : IsrState.harvesting l ≠ .idle := by cases l <;> nofun

/-- The harvest goes through the channels in ascending order. -/
theorem IsrState.afterHarvest_eq_harvesting {c : Channel} {l : List Channel} (h : c :: l <:+ Channel.all) :
    IsrState.afterHarvest c = IsrState.harvesting l := by
  simp only [Channel.all, List.suffix_cons_iff, List.cons.injEq, List.suffix_nil, reduceCtorEq, or_false] at h
  rcases h with ⟨rfl, rfl⟩ | ⟨rfl, rfl⟩ | ⟨rfl, rfl⟩ | ⟨rfl, rfl⟩ <;> rfl

/-- From `s` the service ends within `n` steps of its own, counted once, with at most a byte for each eligible channel of `l`. -/
def State.EndsWithin (s : State) (n : Nat) (l : List Channel) : Prop :=
  ∃ k ≤ n, ∃ t b, Host.Core.run core k s = .next t ∧ b.length ≤ (l.filter (s.store.elig .input)).length ∧
    s.ServesTo .idle (s.irqCount + 1) b t

/-- A step that puts its bytes and goes on to a service that ends. -/
theorem State.EndsWithin.of_step {s t : State} {i : IsrState} {b : List Byte} {n : Nat} {l₁ l₂ : List Channel}
    (hstep : step s = .next t) (hst : s.ServesTo i s.irqCount b t)
    (hb : b.length ≤ (l₁.filter (s.store.elig .input)).length) (h : t.EndsWithin n l₂) : s.EndsWithin (n + 1) (l₁ ++ l₂) := by
  obtain ⟨k, hk, u, b', hrun, hb', htu⟩ := h
  rw [hst.irqCount_eq] at htu
  rw [hst.store_eq] at hb'
  refine ⟨k + 1, Nat.succ_le_succ hk, u, b ++ b', (run_succ_of_step hstep k).trans hrun, ?_, hst.trans htu⟩
  rw [List.length_append, List.filter_append, List.length_append]
  exact Nat.add_le_add hb hb'

theorem State.EndsWithin.mono {s : State} {n n' : Nat} {l l' : List Channel} (h : s.EndsWithin n l) (hn : n ≤ n')
    (hl : l.Sublist l') : s.EndsWithin n' l' := by
  obtain ⟨k, hk, t, b, hrun, hb, hst⟩ := h
  exact ⟨k, hk.trans hn, t, b, hrun, hb.trans (hl.filter _).length_le, hst⟩

theorem State.endsWithin_of_count {s : State} (hx : s.inbox = []) (hi : s.isr = .count) : s.EndsWithin 1 [] := by
  have hstep : step s = .next s.isrCount := by
    rw [step_of_isr_alone hx (by rw [hi]; nofun), State.isrStep_of_count hi]
  exact ⟨1, le_rfl, s.isrCount, [], run_succ_of_step hstep 0, le_rfl, s.isrCount_servesTo⟩

theorem State.endsWithin_of_notify {s : State} (hx : s.inbox = []) (hi : s.isr = .notify) : s.EndsWithin 2 [] := by
  have hstep : step s = .next s.isrNotify := by
    rw [step_of_isr_alone hx (by rw [hi]; nofun), State.isrStep_of_notify hi]
  have hst := s.isrNotify_servesTo
  exact .of_step (l₁ := []) hstep hst le_rfl (State.endsWithin_of_count (hst.inbox_eq.trans hx) hst.isr_eq)

/-- With the channels `l` left the service takes a step for each, or fewer after an overrun, then Notify and Count. -/
theorem State.endsWithin_of_harvesting {s : State} {l : List Channel} (hl : l <:+ Channel.all) (hx : s.inbox = [])
    (hi : s.isr = IsrState.harvesting l) : s.EndsWithin (l.length + 2) l := by
  induction l generalizing s with
  | nil => exact State.endsWithin_of_notify hx hi
  | cons c l ih =>
    have hstep : step s = .next (s.isrHarvest c) := by
      rw [step_of_isr_alone hx (by rw [hi]; nofun), State.isrStep_of_harvest hi]
    obtain ⟨i, b, hnext, hb, hst⟩ := s.isrHarvest_servesTo c
    have hx' := hst.inbox_eq.trans hx
    refine .of_step (l₁ := [c]) hstep hst hb ?_
    rcases hnext with rfl | rfl
    · exact ih ((List.suffix_cons c l).trans hl) hx' (hst.isr_eq.trans (IsrState.afterHarvest_eq_harvesting hl))
    · exact (State.endsWithin_of_notify hx' hst.isr_eq).mono (Nat.le_add_left 2 _) (List.nil_sublist l)

end Sys2Proof.Machine

namespace Sys2Proof.Claims
open Sys2Proof.Machine

/-- Settles O39: after the Ack step the harvest has all four channels left. -/
theorem serviceReachesIdle : Obligations.ServiceReachesIdle := by
  intro s hx hi
  have hstep : step s = .next s.isrAck := by
    rw [step_of_isr_alone hx (by rw [hi]; nofun), State.isrStep_of_ack hi]
  obtain ⟨n, hn, t, l, hrun, hl, latch, acquired, draws, events, rfl⟩ :=
    State.endsWithin_of_harvesting (s := s.isrAck) List.suffix_rfl hx rfl
  exact ⟨n + 1, _, l, Nat.succ_le_succ hn, (run_succ_of_step hstep n).trans hrun, rfl, rfl, rfl, rfl, hl, rfl, rfl, rfl, rfl,
    rfl, rfl, rfl, rfl, rfl, rfl⟩

/-- Settles O36: the channel's eligibility and the environment's answer choose the step. -/
theorem harvestStep : Obligations.HarvestStep := by
  intro s rest c next hturn hi hnext
  obtain rfl : IsrState.afterHarvest c = next := by rw [hnext]; cases c <;> rfl
  have hstep : step s = .next { s.isrHarvest c with inbox := rest } := by
    rw [step_of_isrTurn hturn (by rw [hi]; nofun), State.isrStep_of_harvest hi]
  have helig (hb : s.store.bufEn.get c = true) (hd : s.store.dir.get c = .input) : s.store.elig .input c = true :=
    Store.elig_iff.mpr ⟨hb, hd⟩
  refine ⟨fun hskip => ?skipped, fun hb hd hno => ?overrun, fun hb hd hfree => ?harvested, fun hb hd => ?unfixed⟩ <;> rw [hstep]
  case skipped =>
    have he : ¬s.store.elig .input c = true := fun he => by
      obtain ⟨hb, hd⟩ := Store.elig_iff.mp he
      simp [hb, hd] at hskip
    rw [State.isrHarvest_of_not_elig he]
  case overrun => rw [State.isrHarvest_of_no_slot (helig hb hd) (State.answer_of_fixed hno 0)]
  case harvested => rw [State.isrHarvest_of_slot (helig hb hd) (State.answer_of_fixed hfree 0)]
  case unfixed =>
    refine ⟨_, rfl, ?_⟩
    cases ha : s.answer s.env.slotFree 0 with
    | false => rw [State.isrHarvest_of_no_slot (helig hb hd) ha]; exact .inl ⟨rfl, rfl⟩
    | true => rw [State.isrHarvest_of_slot (helig hb hd) ha]; exact .inr ⟨rfl, rfl⟩

/-- Settles O33: what each premise says is one of the parts of `serviceEnabled`. -/
theorem serviceEntersWhereEnabled : Obligations.ServiceEntersWhereEnabled := by
  refine fun s => ⟨fun hl hi h => exec_serviceIrq_of_enabled (State.serviceEnabled_iff.mpr ⟨hl, hi, h⟩),
    fun h => exec_serviceIrq_of_not_enabled fun he => ?_⟩
  obtain ⟨hl, hi, hr⟩ := State.serviceEnabled_iff.mp he
  rcases h with hu | hne | ⟨hno, hsp⟩
  · cases hl.symm.trans hu
  · exact hne hi
  · rcases hr with ⟨hp, hen⟩ | hs
    · simp [hp, hen] at hno
    · cases hs.symm.trans hsp

/-- Settles O35: the acknowledge is the model's `ackIrq`, which clears the condition and logs it. -/
theorem ackStepClearsPending : Obligations.AckStepClearsPending := by
  intro s rest hturn hi
  rw [step_of_isrTurn hturn (by rw [hi]; nofun), State.isrStep_of_ack hi]
  rfl

/-- Settles O37: the stored target alone decides. -/
theorem notifyStep : Obligations.NotifyStep := by
  intro s rest hturn hi
  rw [step_of_isrTurn hturn (by rw [hi]; nofun), State.isrStep_of_notify hi]
  exact ⟨fun h => by rw [State.isrNotify_of_no_target h], fun h => by rw [State.isrNotify_of_target h]⟩

/-- Settles O38: the word's own increment is the rule's. -/
theorem countStep : Obligations.CountStep := by
  intro s rest hturn hi
  rw [step_of_isrTurn hturn (by rw [hi]; nofun), State.isrStep_of_count hi, ← Word.add_one_eq_ofNat_mod]
  rfl

end Sys2Proof.Claims
end

section
/-! Trigger notification control while Active (45_notification R251, R252): the stored target and the operand choose the error,
and the environment's answer decides the creation. -/

namespace Sys2Proof.Machine
open Sys2Proof.Claims

section
variable {s : State}

/-! ## SET.SIG (R251) -/

theorem State.createSig_of_refused (ha : s.answer s.env.sigOk 0 = false) :
    s.createSig = failed 10 { s with draws := s.draws + 1 } :=
  if_neg (Bool.eq_false_iff.mp ha)

theorem State.createSig_of_created (ha : s.answer s.env.sigOk 0 = true) :
    s.createSig =
      { s with
          sigTarget := s.port.val, draws := s.draws + 1
          resp := { status := 0, res := 0, res2 := 0 }
          events := s.events ++ [.sigCreate s.port.val, .response 0 0 0] } := by
  rw [State.createSig, if_pos ha, State.succeed_of_events rfl]

theorem exec_setSig_of_zero (hl : s.life = .active) (hv : s.port.val = 0) : exec .setSig s = .next (failed 7 s) := by
  rw [exec, execSetSig, State.whenActive_of_active hl, if_pos hv]
  rfl

theorem exec_setSig_of_installed (hl : s.life = .active) (hv : s.port.val ≠ 0) (hs : s.sigTarget ≠ 0) :
    exec .setSig s = .next (failed 5 s) := by
  rw [exec, execSetSig, State.whenActive_of_active hl, if_neg hv, if_pos hs]
  rfl

theorem exec_setSig_of_free (hl : s.life = .active) (hv : s.port.val ≠ 0) (hs : s.sigTarget = 0) :
    exec .setSig s = .next s.createSig := by
  rw [exec, execSetSig, State.whenActive_of_active hl, if_neg hv, if_neg (not_not_intro hs)]

/-! ## SET.SIGCLR (R252) -/

theorem exec_setSigclr_of_free (hl : s.life = .active) (hs : s.sigTarget = 0) : exec .setSigclr s = .next (failed 6 s) := by
  rw [exec, execSetSigclr, State.whenActive_of_active hl, if_pos hs]
  rfl

theorem exec_setSigclr_of_installed (hl : s.life = .active) (hs : s.sigTarget ≠ 0) :
    exec .setSigclr s = .next
      { s with
          sigTarget := 0
          resp := { status := 0, res := 0, res2 := 0 }
          events := s.events ++ [.sigRemove s.sigTarget, .response 0 0 0] } := by
  rw [exec, execSetSigclr, State.whenActive_of_active hl, if_neg hs, State.succeed_of_events rfl]

end

end Sys2Proof.Machine

namespace Sys2Proof.Claims
open Sys2Proof.Machine

/-- Settles O44: past the two checks the creation's outcome is the environment's answer, one of the two whether fixed or not. -/
theorem setSigInstalls : Obligations.SetSigInstalls := by
  intro s hl
  refine ⟨rfl, exec_setSig_of_zero hl, exec_setSig_of_installed hl, fun hv hs hno => ?refused, fun hv hs hok => ?created,
    fun hv hs => ?unfixed⟩ <;> rw [exec_setSig_of_free hl hv hs]
  case refused => rw [State.createSig_of_refused (State.answer_of_fixed hno 0)]
  case created => rw [State.createSig_of_created (State.answer_of_fixed hok 0)]
  case unfixed =>
    refine ⟨_, rfl, ?_⟩
    cases ha : s.answer s.env.sigOk 0 with
    | false => rw [State.createSig_of_refused ha]; exact .inr ⟨rfl, hs⟩
    | true => rw [State.createSig_of_created ha]; exact .inl ⟨rfl, rfl⟩

/-- Settles O45: the stored target alone decides. -/
theorem setSigclrRemoves : Obligations.SetSigclrRemoves :=
  fun _ hl => ⟨rfl, exec_setSigclr_of_free hl, exec_setSigclr_of_installed hl⟩

end Sys2Proof.Claims
end

section
/-! The host surface (46_host_surface R270 to R295): the lifecycle gate, INIT and its record, EXIT, the capability queries and the
setters of the device-wide registers. -/

namespace Sys2Proof.Machine
open Sys2Proof.Claims

/-! ## The lifecycle gate (R270) -/

/-- The gate of the call context stands before every command but INIT and the INFO queries. -/
theorem exec_eq_whenActive {i : Instr} (hp : i.port = .command) (hinit : i ≠ .init) (hspaces : i ≠ .infoNspaces)
    (hwidth : i ≠ .infoSpacewidth) (hirq : i ≠ .infoIrqreq) (s : State) : ∃ t, exec i s = .next (s.whenActive t) := by
  cases i with
  | init => exact absurd rfl hinit
  | infoNspaces => exact absurd rfl hspaces
  | infoSpacewidth => exact absurd rfl hwidth
  | infoIrqreq => exact absurd rfl hirq
  | serviceIrq => cases hp
  | _ => exact ⟨_, rfl⟩

theorem runDecoded_of_uninit {s : State} {d : Decoded} (hl : s.life = .uninit) (hd : ∀ i, d ≠ .instr i) :
    runDecoded d s = .next (refusedFor .notInitialized s) := by
  cases d with
  | instr i => exact absurd rfl (hd i)
  | refuse r => exact runDecoded_refuse_of_uninit hl r
  | unknownStatusCode => rw [runDecoded, State.whenActive_of_uninit hl, State.refuse_eq_refusedFor]

theorem exec_init_of_active {s : State} (hl : s.life = .active) : exec .init s = .next (refusedFor .alreadyInitialized s) := by
  rw [exec, execInit, hl, State.refuse_eq_refusedFor]

theorem exec_init_of_uninit {s : State} (hl : s.life = .uninit) :
    exec .init s = .next (s.withValue s.port.cfg.resolve fun v => s.initialise v) := by
  rw [exec, execInit, hl]

/-! ## The INIT record (30_encoding R97, R272) -/

section
variable {α β : Type} {read : Word → Option α} {dflt : α}

/-- A key that is absent or holds the code of a value resolves to the default or to that value. -/
theorem cfgField_map {code : α → Word} (h : ∀ x, read (code x) = some x) (o : Option α) :
    cfgField read dflt (o.map code) = some (o.getD dflt) := by
  cases o with
  | none => rfl
  | some x => exact h x

theorem cfgField_ne_some {f : Option Word} {w : Word} {x : α} (hf : f = some w) (hw : read w = none) :
    cfgField read dflt f ≠ some x := by
  rw [hf, cfgField, hw]
  nofun

theorem Chans.check_eq_some_iff {f : α → Option β} {v : Chans α} {w : Chans β} :
    Chans.check f v = some w ↔ ∀ c, f (v.get c) = some (w.get c) := by
  refine ⟨fun h c => ?_, fun h => ?_⟩
  · unfold Chans.check at h
    split at h
    · next h0 h1 h2 h3 =>
      cases h
      cases c <;> assumption
    · cases h
  · have h0 : f v.c0 = some w.c0 := h .ch0
    have h1 : f v.c1 = some w.c1 := h .ch1
    have h2 : f v.c2 = some w.c2 := h .ch2
    have h3 : f v.c3 = some w.c3 := h .ch3
    rw [Chans.check, h0, h1, h2, h3]

end

/-- Every key of the record `c`, present or absent, resolves to the value `v` has for it. -/
structure Cfg.ResolvesTo (c : Cfg) (v : InitValues) : Prop where
  idCheck : cfgField boolOfWord? true c.idCheck = some v.idCheck
  edge : cfgField TriggerEdge.ofWord? .falling c.edge = some v.edge
  mode : cfgField modeOfWord? 0 c.mode = some v.mode
  dir : ∀ ch, cfgField Direction.ofWord? .input (c.dir.get ch) = some (v.dir.get ch)
  term : ∀ ch, cfgField Termination.ofWord? .passive (c.term.get ch) = some (v.term.get ch)
  bufEn : ∀ ch, cfgField boolOfWord? true (c.bufEn.get ch) = some (v.bufEn.get ch)
  tmode : cfgField TransportMode.ofWord? .userControlled c.tmode = some v.tmode
  tsize : v.tsize = c.tsize.getD Config.bufDefaultSize
  ttimeout : v.ttimeout = c.ttimeout.getD 0
  thigh : v.thigh = c.thigh.getD 0

theorem Cfg.resolve_eq_some_iff {c : Cfg} {v : InitValues} : c.resolve = some v ↔ c.ResolvesTo v := by
  refine ⟨fun h => ?_, fun h => ?_⟩
  · unfold Cfg.resolve at h
    split at h
    · next hid hedge hmode hdir hterm hbuf htm =>
      cases h
      exact ⟨hid, hedge, hmode, Chans.check_eq_some_iff.mp hdir, Chans.check_eq_some_iff.mp hterm,
        Chans.check_eq_some_iff.mp hbuf, htm, rfl, rfl, rfl⟩
    · cases h
  · obtain ⟨hid, hedge, hmode, hdir, hterm, hbuf, htm, hsize, htimeout, hhigh⟩ := h
    rw [Cfg.resolve, hid, hedge, hmode, Chans.check_eq_some_iff.mpr hdir, Chans.check_eq_some_iff.mpr hterm,
      Chans.check_eq_some_iff.mpr hbuf, htm, ← hsize, ← htimeout, ← hhigh]

/-! ## INIT with a valid record (R271, R273) -/

section
variable {s : State} {v : InitValues}

theorem State.initialise_of_mismatch (hv : v.idCheck = true) (hid : s.answer s.env.idOk 0 = false) :
    s.initialise v = failed 9 { s with draws := s.draws + 1 } := by
  rw [State.initialise, if_pos (by simp [hv, hid])]
  rfl

theorem State.initialise_of_unallocated (hid : v.idCheck = false ∨ s.answer s.env.idOk 0 = true)
    (hno : s.answer s.env.allocOk 1 = false ∨ s.answer s.env.transportOk 2 = false) :
    s.initialise v = failed 10 { s with draws := s.draws + 1 } := by
  rw [State.initialise, if_neg (by simpa [or_iff_not_imp_left] using hid)]
  cases ha : s.answer s.env.allocOk 1 with
  | false => rfl
  | true =>
    rw [hno.resolve_left (by simp [ha])]
    rfl

/-- INIT that passes its checks: the program of R351 with the response as its last event. -/
theorem State.initialise_of_allocated (hid : v.idCheck = false ∨ s.answer s.env.idOk 0 = true)
    (ha : s.answer s.env.allocOk 1 = true) (ht : s.answer s.env.transportOk 2 = true) :
    s.initialise v =
      { s.program v with
          resp := { status := 0, res := 0, res2 := 0 }
          events := s.events ++ .bufCreate v.tmode v.tsize v.ttimeout v.thigh :: (initCtrlWrites v ++ [.response 0 0 0]) } := by
  rw [State.initialise, if_neg (by simpa [or_iff_not_imp_left] using hid), ha, ht, ← List.cons_append, ← List.append_assoc]
  rfl

theorem State.initialise_refused (s : State) (v : InitValues) : (s.initialise v).refused = s.refused := by
  unfold State.initialise
  split
  · rfl
  split
  · rfl
  split <;> rfl

theorem exec_init_of_resolved (hl : s.life = .uninit) (h : s.port.cfg.resolve = some v) :
    exec .init s = .next (s.initialise v) := by
  rw [exec_init_of_uninit hl, h, State.withValue_some]

theorem exec_init_of_unresolved (hl : s.life = .uninit) (h : s.port.cfg.resolve = none) : exec .init s = .next (failed 1 s) := by
  rw [exec_init_of_uninit hl, h]
  rfl

end

/-! ## EXIT (R276, R352) -/

theorem State.keptOnExit_eq (s : State) (r : Chans (Option Byte)) (c : Channel) :
    s.keptOnExit r c = if s.store.dir.get c = .input ∨ s.params.exitRegisters = .kept then r.get c else none := by
  unfold State.keptOnExit
  cases s.store.dir.get c with
  | input => simp
  | output => cases s.params.exitRegisters <;> simp

/-- No channel is selected for the direction none has. -/
theorem Store.sel_of_dir_ne {st : Store} {d : Direction} (h : ∀ c, st.dir.get c ≠ d) : st.sel d = [] :=
  List.eq_nil_iff_forall_not_mem.mpr fun c hc => h c (Store.mem_sel.mp hc).2

/-- The store of EXIT: every channel is an Input with passive termination, and none counts for the write size. -/
theorem Store.recompute_of_exit (st : Store) :
    Store.recompute { st with dir := .const .input, term := .const .passive } =
      { st with
          dir := .const .input, term := .const .passive
          readSize := countOf st.bufEn (.const .input) .input, writeSize := 0 } := by
  rw [Store.recompute, Store.sel_of_dir_ne (d := .output) fun c => by simp]
  rfl

theorem exec_exit_of_active {s : State} (hl : s.life = .active) : exec .exit s = .next (s.shutdown.succeed 0) := by
  rw [exec, execExit, State.whenActive_of_active hl]

end Sys2Proof.Machine

namespace Sys2Proof.Claims
open Sys2Proof.Machine

/-- Settles O8: the gate of a gated command, of a word that spells none, of the interrupt entry, and INIT's own. -/
theorem lifecycleGate : Obligations.LifecycleGate := by
  refine ⟨fun i s hl hp hinit hspaces hwidth hirq => ?_, fun s p rest hl hp hd => ?_, fun s hl => ?_, fun s hl => ?_,
    fun s => exec_init_of_active⟩
  · obtain ⟨t, ht⟩ := exec_eq_whenActive hp hinit hspaces hwidth hirq s
    rw [ht, State.whenActive_of_uninit hl, State.refuse_eq_refusedFor]
  · rw [step_of_command hp]
    exact runDecoded_of_uninit (s := { s with inbox := rest, port := p }) hl hd
  · exact exec_serviceIrq_of_not_enabled fun he => by
      cases hl.symm.trans (State.serviceEnabled_iff.mp he).1
  · exact ⟨_, exec_init_of_uninit hl,
      State.withValue_ind (P := fun t => t.refused = s.refused) rfl fun v _ => s.initialise_refused v⟩

/-- Settles O46: each present key holds its value's code, so the record resolves to the values and defaults. -/
theorem initProgramsTheBlock : Obligations.InitProgramsTheBlock := by
  intro s ic e m d t b tm ts tt th hl hcfg hid ha ht
  have hres : s.port.cfg.resolve = some
      { idCheck := ic.getD true, edge := e.getD .falling, mode := m.getD 0
        dir := .ofFn fun c => (d.get c).getD .input
        term := .ofFn fun c => (t.get c).getD .passive
        bufEn := .ofFn fun c => (b.get c).getD true
        tmode := tm.getD .userControlled, tsize := ts.getD Config.bufDefaultSize
        ttimeout := tt.getD 0, thigh := th.getD 0 } := by
    rw [hcfg]
    refine Cfg.resolve_eq_some_iff.mpr
      { idCheck := cfgField_map (fun x => by cases x <;> rfl) ic
        edge := cfgField_map (fun x => by cases x <;> rfl) e
        mode := cfgField_map modeOfWord?_setWidth m
        dir := fun c => ?_
        term := fun c => ?_
        bufEn := fun c => ?_
        tmode := cfgField_map TransportMode.ofWord?_code tm
        tsize := rfl, ttimeout := rfl, thigh := rfl } <;>
      rw [Chans.get_ofFn, Chans.get_ofFn] <;> exact cfgField_map (fun x => by cases x <;> rfl) _
  have hid : ic.getD true = false ∨ s.answer s.env.idOk 0 = true :=
    hid.imp (fun h => by rw [h]; rfl) (State.answer_of_fixed · 0)
  rw [exec_init_of_resolved hl hres,
    State.initialise_of_allocated hid (State.answer_of_fixed ha 1) (State.answer_of_fixed ht 2)]
  exact ⟨_, _, _, s.drawBit 3, _, Chans.get_ofFn _, Chans.get_ofFn _, Chans.get_ofFn _, rfl, rfl⟩

/-- Settles O47: a record with such a field resolves to nothing. -/
theorem initRejectsOutOfRange : Obligations.InitRejectsOutOfRange := by
  intro s w hl h
  refine exec_init_of_unresolved hl (Option.eq_none_iff_forall_ne_some.mpr fun v hv => ?_)
  have hr := Cfg.resolve_eq_some_iff.mp hv
  rcases h with ⟨hw, hf | hf | ⟨c, hf | hf | hf⟩⟩ | ⟨hw, hf⟩ | ⟨hw, hf⟩
  · exact cfgField_ne_some hf (twoValued_eq_none hw) hr.idCheck
  · exact cfgField_ne_some hf (twoValued_eq_none hw) hr.edge
  · exact cfgField_ne_some hf (twoValued_eq_none hw) (hr.dir c)
  · exact cfgField_ne_some hf (twoValued_eq_none hw) (hr.term c)
  · exact cfgField_ne_some hf (twoValued_eq_none hw) (hr.bufEn c)
  · exact cfgField_ne_some hf (modeOfWord?_eq_none hw) hr.mode
  · exact cfgField_ne_some hf (TransportMode.ofWord?_eq_none hw) hr.tmode

/-- Settles O48: each fixed answer is the one INIT gets. -/
theorem initErrorsInOrder : Obligations.InitErrorsInOrder := by
  intro s v hl hres
  rw [exec_init_of_resolved hl hres]
  refine ⟨fun hv hid => ?_, fun hid hno => ?_⟩
  · rw [State.initialise_of_mismatch hv (State.answer_of_fixed hid 0)]
  · rw [State.initialise_of_unallocated (hid.imp_right (State.answer_of_fixed · 0))
      (hno.imp (State.answer_of_fixed · 1) fun ⟨_, ht⟩ => State.answer_of_fixed ht 2)]

/-- Settles O49: the registers are kept as `State.keptOnExit` says, and the sizes count Input channels only. -/
theorem exitDrivesTheSafeState : Obligations.ExitDrivesTheSafeState := by
  intro s hl
  refine ⟨.ofFn (s.keptOnExit s.latch), .ofFn (s.keptOnExit s.outReg), _, fun c => ?_, fun c => ?_, rfl, ?_⟩
  · rw [Chans.get_ofFn, State.keptOnExit_eq]
  · rw [Chans.get_ofFn, State.keptOnExit_eq]
  · rw [exec_exit_of_active hl, State.succeed_of_events (e := .bufRemove) rfl, ← Store.recompute_of_exit]
    simp only [← List.append_assoc]
    rfl

/-- Settles O13: there is one address space, of index 0. -/
theorem infoQueriesAnswer : Obligations.InfoQueriesAnswer := by
  intro s
  refine ⟨rfl, rfl, rfl, fun hv => ?_, fun hv => ?_, rfl, rfl⟩
  · exact congrArg _ (if_neg (by rw [hv]; decide))
  · exact congrArg _ (if_pos hv)

/-- Settles O50: past the gate the operand is stored with no check. -/
theorem anyValueSettersWrite : Obligations.AnyValueSettersWrite := by
  intro s hl
  refine ⟨rfl, rfl, ?_, ?_⟩
  · rw [exec, execSetDebugLevel, State.whenActive_of_active hl]
    rfl
  · rw [exec, execSetIrqCount, State.whenActive_of_active hl]
    rfl

/-- Settles O51: the update is the model's `setIrqEnable`, which does not touch the pending condition. -/
theorem setIrqEnableWrites : Obligations.SetIrqEnableWrites := by
  intro s hl
  obtain ⟨hbad, hgood⟩ := exec_write_of_active (i := .setIrqEnable) hl rfl
  refine ⟨rfl, fun hv => hbad (twoValued_eq_none hv), fun b hv => ?_⟩
  rw [hgood b (by rw [hv, ← boolCode_eq, boolOfWord?_boolCode]), State.succeed_of_events (e := .ctrlWrite (.irqen b)) rfl]
  rfl

end Sys2Proof.Claims
end

section
/-! A command's error answer (60_exceptions R311): of the effects of a command only the errors log one, and they write nothing but
the response. -/

namespace Sys2Proof.Machine

/-- The event is the response of a command that failed (30_encoding R98, 60_exceptions R311). -/
def Event.isError : Event → Bool
  | .response e _ _ => e != 0
  | .portRead _ _ | .portWrite _ _ | .ctrlWrite _ | .ackIrq | .bufMode _ | .bufAcquire _ | .bufPut _ _ | .bufReady _ | .bufRead _ _
  | .notify _ | .overrun _ | .memRead _ _ | .memWrite _ _ | .bufCreate _ _ _ _ | .bufRemove | .sigCreate _ | .sigRemove _ => false

/-- The error answers logged so far. -/
def State.errors (s : State) : List Event := s.events.filter Event.isError

section
variable {s t : State}

theorem State.errors_of_events {l : List Event} (h : t.events = s.events ++ l) :
    t.errors = s.errors ++ l.filter Event.isError := by
  rw [State.errors, h, List.filter_append, State.errors]

/-- Events none of which is an error answer leave the error answers as they were. -/
theorem State.errors_eq_of_events {l : List Event} (h : t.events = s.events ++ l) (hl : ∀ e ∈ l, e.isError = false) :
    t.errors = s.errors := by
  rw [State.errors_of_events h, List.filter_eq_nil_iff.mpr fun e he => Bool.eq_false_iff.mp (hl e he), List.append_nil]

/-- An error answer among the new events is seen in the error answers. -/
theorem State.errors_ne_of_response {l : List Event} {e r r2 : Word} (h : t.events = s.events ++ l)
    (hmem : .response e r r2 ∈ l) (he : e ≠ 0) : t.errors ≠ s.errors := fun hsame => by
  rw [State.errors_of_events h, List.append_right_eq_self, List.filter_eq_nil_iff] at hsame
  exact hsame _ hmem (bne_iff_ne.mpr he)

/-- A response of success is no error answer. -/
@[simp] theorem State.succeed_errors (r : Word) (s : State) : (s.succeed r).errors = s.errors :=
  State.errors_eq_of_events (t := s.succeed r) rfl (List.forall_mem_singleton.mpr rfl)

theorem State.program_errors (v : InitValues) (s : State) : (s.program v).errors = s.errors :=
  State.errors_eq_of_events (t := s.program v) rfl (by simp [initCtrlWrites, Channel.all, Event.isError])

theorem State.shutdown_errors (s : State) : s.shutdown.errors = s.errors := by
  refine State.errors_eq_of_events (t := s.shutdown) (by simp only [State.shutdown, List.append_assoc]; rfl) ?_
  split <;> simp [exitCtrlWrites, Channel.all, Event.isError]

theorem BlkOp.queries_isError (op : BlkOp) (m : TransportMode) : ∀ e ∈ op.queries m, e.isError = false := by
  cases op with
  | blkread => exact List.forall_mem_singleton.mpr rfl
  | blkwrite => exact List.forall_mem_nil _

/-- A command fails with nothing but the response and the counter of draws, or it logs no error answer. -/
theorem CommandEffect.failed_or_errors_eq {i : Instr} (h : CommandEffect s i t) :
    (∃ e : Word, t = Claims.failed e { s with draws := t.draws }) ∨ t.errors = s.errors := by
  cases h with
  | failed i e | failedAfterDraw i e => exact .inl ⟨e.code, rfl⟩
  | gated | alreadyActive | badChannel | blockStuck | entered | notEntered => exact .inr rfl
  | answered | bufEnSet | debugLevelSet | irqCountSet => exact .inr (State.succeed_errors _ _)
  | programmed v => exact .inr ((State.succeed_errors _ _).trans (s.program_errors v))
  | shutDown => exact .inr ((State.succeed_errors _ _).trans s.shutdown_errors)
  | blockStarted op => exact .inr (State.errors_eq_of_events rfl (op.queries_isError _))
  | readWaits => exact .inr (State.errors_eq_of_events (t := s.startWait) rfl (List.forall_mem_singleton.mpr rfl))
  | portRead | portWritten | dirSet | termSet | edgeSet | modeSet | irqEnableSet | sigCreated | sigRemoved =>
    exact .inr ((State.succeed_errors _ _).trans (State.errors_eq_of_events rfl (List.forall_mem_singleton.mpr rfl)))

end

end Sys2Proof.Machine

namespace Sys2Proof.Claims
open Sys2Proof.Machine

/-- Settles O58: a command that logs an error answer is one of the errors, whose response is the only new event. -/
theorem errorsChangeNothing : Obligations.ErrorsChangeNothing := by
  intro i s t l e r r2 hexec hlog hmem he
  rcases (CommandEffect.of_exec hexec).failed_or_errors_eq with ⟨c, ht⟩ | hsame
  · have hl : [.response c 0 0] = l := List.append_cancel_left ((congrArg State.events ht).symm.trans hlog)
    obtain ⟨rfl, rfl, rfl⟩ : e = c ∧ r = 0 ∧ r2 = 0 := by simpa [← hl] using hmem
    exact ⟨rfl, rfl, ht⟩
  · exact absurd hsame (State.errors_ne_of_response hlog hmem he)

end Sys2Proof.Claims
end

section
/-! The interrupt entry (60_exceptions R315 to R319) and the state before the first INIT (70_reset_and_hazards R350). -/

namespace Sys2Proof.Machine
open Sys2Proof.Claims

theorem IsrState.afterHarvest_ne_ack (c : Channel) : IsrState.afterHarvest c ≠ .ack := by cases c <;> nofun

/-- The running service moves on from Ack and does not come back to it (44_isr_sequencer R221 to R224). -/
theorem State.isrStep_isr_ne_ack (s : State) : s.isrStep.isr ≠ .ack := by
  cases hi : s.isr with
  | idle => rw [State.isrStep_of_idle hi, hi]; nofun
  | ack => rw [State.isrStep_of_ack hi]; nofun
  | harvest c =>
    rw [State.isrStep_of_harvest hi]
    rcases s.isrHarvest_cases c with ⟨-, h⟩ | ⟨-, -, h⟩ | ⟨-, -, h⟩ <;> rw [h]
    · exact IsrState.afterHarvest_ne_ack c
    · exact IsrState.afterHarvest_ne_ack c
    · nofun
  | notify => rw [State.isrStep_of_notify hi, State.isrNotify_frame]; nofun
  | count => rw [State.isrStep_of_count hi]; nofun
  | unassigned k =>
    have hk : (s.markFault .isrStateInvalid).isr = .unassigned k := hi
    rw [State.isrStep_of_unassigned hi, hk]
    nofun

theorem State.envMove_isr (m : EnvMove) (s : State) : (s.envMove m).isr = s.isr := by rw [State.envMove_frame]

/-- The dispatch layer presents an asserted request on a turn of the block's own agents (60_exceptions R316, log 24). -/
theorem step_of_request {s : State} {rest : List Input} (h : OwnTurn s rest) (hl : s.life = .active) (hi : s.isr = .idle)
    (hr : s.request = true) : step s = .next { s with isr := .ack, inbox := rest } := by
  rw [step_of_ownTurn h]
  exact ownStep_of_request (s := { s with inbox := rest }) hi hl hr

/-- With nothing lined up, no service to run or enter and no command in flight, the block waits. -/
theorem step_of_quiet {s : State} (hx : s.inbox = []) (hi : s.isr = .idle) (hr : s.life = .active → s.request = false)
    (hb : s.blk = none) (hw : s.rdWait = none) : step s = .next s := by
  rw [step_of_inbox_nil hx, ownStep_of_call hi hr, callStep_of_free hb hw]

end Sys2Proof.Machine

namespace Sys2Proof.Claims
open Sys2Proof.Machine

/-- Settles O41: with the ISR running only the sequencer and the environment move, and the sequencer does not come back to Ack. -/
theorem servicesDoNotNest : Obligations.ServicesDoNotNest := by
  intro s t h hack hisr
  rcases step_cases s with ⟨l, -, hs⟩ | ⟨l, -, hi, -⟩ | ⟨m, l, hx, hs⟩ | ⟨p, l, -, hb, -⟩ | ⟨w, l, -, hi, -⟩ |
    ⟨a, l, -, hi, -⟩
  · rw [hs, ownStep_of_isr (s := { s with inbox := l }) hisr] at h
    cases h
    exact absurd hack (State.isrStep_isr_ne_ack _)
  · exact absurd hi hisr
  · cases hs.symm.trans h
    exact ⟨m, l, hx, (State.envMove_isr m { s with inbox := l }).symm.trans hack⟩
  · cases (State.callBoundary_eq_false (.inl hisr)).symm.trans hb
  · exact absurd hi hisr
  · exact absurd hi hisr

/-- Settles O34: the asserted request is the enabled pending condition (R315). -/
theorem assertedRequestIsServed : Obligations.AssertedRequestIsServed := by
  intro s rest hturn hl hi hp he
  exact step_of_request hturn hl hi (by rw [State.request, hp, he]; rfl)

/-- Settles O52: before the first INIT nothing is lined up and no agent has anything to do. -/
theorem resetWaitsForACommand : Obligations.ResetWaitsForACommand :=
  ⟨rfl, rfl, rfl, rfl, step_of_quiet rfl rfl nofun rfl rfl⟩

end Sys2Proof.Claims
end
